-- ==== Sys2Proof/Word.lean ====
section
/-! DEFINITION. The word types of the block: the fixed widths of 00_scope.md R9 and 10_state.md.
A one-bit signal or register is a `Bool`, `true` for 1 (the high level). -/

namespace Sys2Proof

/-- The command word `cmd[3:0]` (30_encoding.md R60). -/
abbrev Cmd := BitVec 4

/-- The gain code, and each two-bit field of a command word (R9, R60). -/
abbrev GainCode := BitVec 2

/-- The pulse index `cnt` (10_state.md R22). -/
abbrev PulseIdx := BitVec 5

/-- The 24-bit frame: the shift register and the frame register (R9, R25, R26). -/
abbrev Frame := BitVec 24

/-- The sign-extended 32-bit value (R9, R110). -/
abbrev Value := BitVec 32

/-- The status word (10_state.md R35). -/
abbrev StatusWord := BitVec 8

end Sys2Proof
end

