-- ==== Sys2Proof/Syntax.lean ====
section
/-! DEFINITION. The commands of HXR-CMD version 1: one constructor per row of
spec/opcode_table.json (30_encoding.md R62). A command word fixes every bit, so no constructor has
an operand: the gain code of a READ is part of its row. -/

namespace Sys2Proof

inductive Instr where
  /-- `0000`, R130 -/
  | nop
  /-- `0001`, reserved, R131 -/
  | reserved0001
  /-- `0010`, reserved, R131 -/
  | reserved0010
  /-- `0011`, reserved, R131 -/
  | reserved0011
  /-- `0100`, `READ 0`, channel A gain 128, R90 -/
  | read0
  /-- `0101`, `READ 1`, channel B gain 32, R90 -/
  | read1
  /-- `0110`, `READ 2`, channel A gain 64, R90 -/
  | read2
  /-- `0111`, reserved (gain code 3), R131 -/
  | reserved0111
  /-- `1000`, R120 -/
  | powerDown
  /-- `1001`, reserved, R131 -/
  | reserved1001
  /-- `1010`, reserved, R131 -/
  | reserved1010
  /-- `1011`, reserved, R131 -/
  | reserved1011
  /-- `1100`, R121 -/
  | powerUp
  /-- `1101`, reserved, R131 -/
  | reserved1101
  /-- `1110`, reserved, R131 -/
  | reserved1110
  /-- `1111`, reserved, R131 -/
  | reserved1111
deriving DecidableEq, Repr

end Sys2Proof
end

