-- ==== Sys2Proof/Decode.lean ====
section
/-! DEFINITION. The command decoder and encoder (30_encoding.md R60, R62). -/

namespace Sys2Proof

/-- R60: the operation field `cmd[3:2]`. -/
def opField (w : Cmd) : BitVec 2 := w.extractLsb' 2 2

/-- R60: the argument field `cmd[1:0]`; for a READ, the gain code (R63). -/
def argField (w : Cmd) : GainCode := w.extractLsb' 0 2

/-- Choose by a two-bit field. -/
def byField {α : Type} (f : BitVec 2) (a00 a01 a10 a11 : α) : α :=
  if f = 0b00#2 then a00 else if f = 0b01#2 then a01 else if f = 0b10#2 then a10 else a11

/-- R62: the opcode map. "A decoder matches all four bits." Every word has a meaning, so no word is
rejected here. -/
def decode (w : Cmd) : Instr :=
  byField (opField w)
    (byField (argField w) .nop .reserved0001 .reserved0010 .reserved0011)
    (byField (argField w) .read0 .read1 .read2 .reserved0111)
    (byField (argField w) .powerDown .reserved1001 .reserved1010 .reserved1011)
    (byField (argField w) .powerUp .reserved1101 .reserved1110 .reserved1111)

/-- R62: the word of each row, as the table's `encoding` column writes it. -/
def encode : Instr → Cmd
  | .nop => 0b0000#4
  | .reserved0001 => 0b0001#4
  | .reserved0010 => 0b0010#4
  | .reserved0011 => 0b0011#4
  | .read0 => 0b0100#4
  | .read1 => 0b0101#4
  | .read2 => 0b0110#4
  | .reserved0111 => 0b0111#4
  | .powerDown => 0b1000#4
  | .reserved1001 => 0b1001#4
  | .reserved1010 => 0b1010#4
  | .reserved1011 => 0b1011#4
  | .powerUp => 0b1100#4
  | .reserved1101 => 0b1101#4
  | .reserved1110 => 0b1110#4
  | .reserved1111 => 0b1111#4

/-- Why a number is no command: the port has four lines (R33, R60: "Every command is 4 bits"). -/
inductive DecodeReject where
  | widerThanTheCommandPort (w : Nat)
deriving DecidableEq, Repr

/-- The decoder over any number. -/
def decodeNat (w : Nat) : Except DecodeReject Instr :=
  if w < 16 then .ok (decode (BitVec.ofNat 4 w)) else .error (.widerThanTheCommandPort w)

/-- The instruction the decoder reads from a row's bits, numbered as the table numbers them: bit 0
is `cmd[0]` (R10, R60). Bits above `nbits` are 0, so `nbits` adds nothing to `w`. -/
def decodeTableWord (_nbits w : Nat) : Option Instr :=
  match decodeNat w with
  | .ok i => some i
  | .error _ => none

end Sys2Proof
end

