-- ==== Sys2Proof/Config.lean ====
section
/-! DEFINITION. What an implementation fixes (the two OPEN parameters of 00_scope.md R6 and R7) and
the free draws of the data line (10_state.md R33). -/

namespace Sys2Proof

/-- The implementation parameters of R6 and R7, in `clk` cycles. A value of this type is a
configuration of the hardware: R8 refuses 0 for either, so a configuration carries the proof that
neither is. -/
structure Params where
  /-- `T_HALF`: cycles `pd_sck` is held at each level during one pulse of a READ (R6). -/
  tHalf : Nat
  /-- `T_PWR`: cycles the block stays busy after POWER_DOWN or POWER_UP (R7). -/
  tPwr : Nat
  tHalf_pos : 1 ≤ tHalf
  tPwr_pos : 1 ≤ tPwr
deriving DecidableEq, Repr

/-- Why a pair of numbers is not a configuration (R8). -/
inductive ParamReject where
  | tHalfZero
  | tPwrZero
deriving DecidableEq, Repr

/-- R8: "A model refuses it at elaboration". -/
def Params.elaborate (tHalf tPwr : Nat) : Except ParamReject Params :=
  if h : 1 ≤ tHalf then
    if p : 1 ≤ tPwr then .ok ⟨tHalf, tPwr, h, p⟩ else .error .tPwrZero
  else .error .tHalfZero

/-- R6: `T_HALF = ceil(delay_us * f_clk / 10^6)`, the platform's mapping from the configured delay
in microseconds to cycles. -/
def Params.halfCycles (delayUs fClk : Nat) : Nat := (delayUs * fClk + 999999) / 1000000

/-- R24: the hardware width of `tmr`, `ceil(log2(max(T_HALF, T_PWR)))` bits, at least 1. -/
def Params.tmrWidth (p : Params) : Nat := max 1 (Nat.clog 2 (max p.tHalf p.tPwr))

/-- The OPEN value of `T_HALF`, less one. -/
opaque Config.tHalfLessOne : Nat

/-- The OPEN value of `T_PWR`, less one. -/
opaque Config.tPwrLessOne : Nat

/-- The configuration of a machine about which only R6 to R8 are known. -/
def Config.openParams : Params :=
  ⟨Config.tHalfLessOne + 1, Config.tPwrLessOne + 1, Nat.le_add_left _ _, Nat.le_add_left _ _⟩

/-- The level of `dout` in a cycle whose level the state does not list: a free draw (R33, R88, I1),
one for each cycle number. -/
opaque Config.freeDout : Nat → Bool

end Sys2Proof
end

