-- ==== Sys2Proof/Machine/State.lean ====
section
/-! DEFINITION. The state of the block (10_state.md section 1), the reasons a step could stop, and
the state right after reset (70_reset_and_hazards.md R170). -/

namespace Sys2Proof.Machine

/-- The sequencer phase `st` (R21). -/
inductive Phase where
  /-- no operation is in flight -/
  | idle
  /-- the high half of a READ pulse -/
  | hi
  /-- the low half of a READ pulse -/
  | lo
  /-- the hold after POWER_DOWN or POWER_UP -/
  | pwr
deriving DecidableEq, Repr

/-- What the host drives on its input ports during one cycle (R33). -/
structure PortIn where
  rst : Bool
  cmdValid : Bool
  cmd : Cmd
deriving DecidableEq, Repr

/-- `st` to `ill` are the tuple of R20, in its order. The last four fields are the model's own: the
parameters of the step function (R6, R7, R20), and the inputs of the coming cycles (R33), which
`step` has no other argument to carry. -/
structure State where
  /-- sequencer phase (R21) -/
  st : Phase
  /-- pulse index within a READ (R22) -/
  cnt : PulseIdx
  /-- gain code of the READ in flight (R23) -/
  g : GainCode
  /-- phase timer (R24) -/
  tmr : Nat
  /-- shift register (R25) -/
  sr : Frame
  /-- frame register (R26) -/
  frame : Frame
  /-- the `pd_sck` output register (R27) -/
  sck : Bool
  /-- frame-valid flag (R28) -/
  valid : Bool
  /-- completion pulse (R29) -/
  done : Bool
  /-- sticky not-ready flag (R30) -/
  nrdy : Bool
  /-- sticky illegal-command flag (R31) -/
  ill : Bool
  /-- `T_HALF` and `T_PWR` (log entry 1) -/
  params : Params
  /-- the host's ports in this cycle and the next ones, this cycle first (log entry 2) -/
  port : List PortIn
  /-- the level of `dout` in this cycle and the next ones, this cycle first (log entry 3) -/
  line : List Bool
  /-- the number of the current cycle (R11), which indexes the free draws (log entry 3) -/
  cycle : Nat
deriving DecidableEq, Repr

/-- The faults of the machine: none. R150: "The block raises no exception, takes no trap and
transfers control nowhere. No condition stops, stalls or redirects the sequencer." Nothing raises a
fault, so nothing is lost by stopping (safe). -/
inductive Fault where
deriving DecidableEq, Repr

/-- Why the model would give an instruction no meaning. -/
inductive Refusal where
  /-- Raised by an arm of `exec` for an instruction that has no meaning yet; no arm raises it now
  (safe: it only stops). -/
  | notModelled (mnemonic : String)
deriving DecidableEq, Repr

/-- R170: the state in the first cycle after an edge with `rst = 1`. The parameters are OPEN (log
entry 1), no input is listed (log entries 2, 3). -/
def State.reset : State where
  st := .idle
  cnt := 0
  g := 0
  tmr := 0
  sr := 0x000000#24
  frame := 0x000000#24
  sck := false
  valid := false
  done := false
  nrdy := false
  ill := false
  params := Config.openParams
  port := []
  line := []
  cycle := 0

end Sys2Proof.Machine
end

