-- ==== Sys2Proof/Machine/Operands.lean ====
section
/-! DEFINITION. The one operand of the command set, the gain code of a READ (30_encoding.md R63),
what follows from it, the two-bit code of the phase (R21), and the inputs of a cycle (R33). -/

namespace Sys2Proof.Machine

/-- The gain code of an instruction that is a READ, `cmd[1:0]` of its word (R63). -/
def gainOf : Instr → Option GainCode
  | .nop => none
  | .reserved0001 => none
  | .reserved0010 => none
  | .reserved0011 => none
  | .read0 => some (argField (encode .read0))
  | .read1 => some (argField (encode .read1))
  | .read2 => some (argField (encode .read2))
  | .reserved0111 => none
  | .powerDown => none
  | .reserved1001 => none
  | .reserved1010 => none
  | .reserved1011 => none
  | .powerUp => none
  | .reserved1101 => none
  | .reserved1110 => none
  | .reserved1111 => none

/-- R63: trailing pulses, `g + 1`. -/
def gainPulses (g : GainCode) : Nat := g.toNat + 1

/-- R93: pulses of one READ, 24 data pulses and `g + 1` gain pulses. -/
def totalPulses (g : GainCode) : Nat := 24 + gainPulses g

/-- R97: `L(g) = 2 * T_HALF * (25 + g)`, the length of a READ in edges. -/
def readLength (p : Params) (g : GainCode) : Nat := 2 * p.tHalf * totalPulses g

/-- R184: the busy cycles of each command. -/
def busyCycles (p : Params) : Instr → Nat
  | .nop => 0
  | .reserved0001 => 0
  | .reserved0010 => 0
  | .reserved0011 => 0
  | .read0 => 50 * p.tHalf
  | .read1 => 52 * p.tHalf
  | .read2 => 54 * p.tHalf
  | .reserved0111 => 0
  | .powerDown => p.tPwr
  | .reserved1001 => 0
  | .reserved1010 => 0
  | .reserved1011 => 0
  | .powerUp => p.tPwr
  | .reserved1101 => 0
  | .reserved1110 => 0
  | .reserved1111 => 0

/-- The converter's input channel (R63). -/
inductive Channel where
  | a
  | b
deriving DecidableEq, Repr

/-- R63: the channel and gain a gain code selects for the converter's next conversion; code 3
selects none. -/
def nextConversion (g : GainCode) : Option (Channel × Nat) :=
  byField g (some (.a, 128)) (some (.b, 32)) (some (.a, 64)) none

/-- R21: the two-bit encoding of the phase. -/
def Phase.code : Phase → BitVec 2
  | .idle => 0b00#2
  | .hi => 0b01#2
  | .lo => 0b10#2
  | .pwr => 0b11#2

/-- R21: the phase a two-bit code stands for. -/
def Phase.ofCode (c : BitVec 2) : Phase := byField c .idle .hi .lo .pwr

/-- R67: "In every cycle no line names, `cmd_valid = 0` and `rst = 0`." -/
def PortIn.quiet : PortIn := ⟨false, false, 0⟩

/-- The host's ports `j` cycles from now; a cycle the list does not reach is quiet (log entry 2). -/
def State.portAt (s : State) (j : Nat) : PortIn := s.port.getD j PortIn.quiet

/-- The level of `dout` `j` cycles from now; a cycle the list does not reach is a free draw
(R33, log entry 3). -/
def State.doutAt (s : State) (j : Nat) : Bool := s.line.getD j (Config.freeDout (s.cycle + j))

/-- `in.rst`. -/
def State.inRst (s : State) : Bool := (s.portAt 0).rst

/-- `in.cmd_valid`. -/
def State.inCmdValid (s : State) : Bool := (s.portAt 0).cmdValid

/-- `in.cmd`. -/
def State.inCmd (s : State) : Cmd := (s.portAt 0).cmd

/-- `in.dout`. -/
def State.inDout (s : State) : Bool := s.doutAt 0

/-- The same state with the host driving `p` in this cycle; later cycles are as they were. -/
def State.driving (s : State) (p : PortIn) : State := { s with port := p :: s.port.tail }

end Sys2Proof.Machine
end

