-- ==== Sys2Proof/Machine/Flags.lean ====
section
/-! DEFINITION. The frame sign-extender (42_sign_extend.md), the output ports (10_state.md R34) and
the status word (R35), and the computation of the flags a command writes (R38). -/

namespace Sys2Proof.Machine

/-- R110: `sext24to32`. "if bit 23 is set, setting all of bits 24-31; otherwise leave as-is". -/
def sext24to32 (raw : Frame) : Value :=
  if raw.getLsbD 23 then 0xFF#8 ++ raw else 0x00#8 ++ raw

/-- Output `cmd_ready` (R34). -/
def State.cmdReady (s : State) : Bool := decide (s.st = .idle)

/-- Output `busy` (R34). -/
def State.busy (s : State) : Bool := decide (s.st ≠ .idle)

/-- Output `ready` (R34): `(in.dout = 0) and (s.st = IDLE) and (s.sck = 0)`. -/
def State.ready (s : State) : Bool := !s.inDout && decide (s.st = .idle) && !s.sck

/-- Output `value` (R111): combinational, from the frame register. -/
def State.value (s : State) : Value := sext24to32 s.frame

/-- R35: bit 7 reads 0, then READY, PD, ILL, NRDY, DONE, VALID, and BUSY in bit 0. -/
def State.status (s : State) : StatusWord :=
  BitVec.ofBool false ++ BitVec.ofBool s.ready ++ BitVec.ofBool s.sck ++ BitVec.ofBool s.ill ++
    BitVec.ofBool s.nrdy ++ BitVec.ofBool s.done ++ BitVec.ofBool s.valid ++ BitVec.ofBool s.busy

/-- The output ports (R34). -/
structure Outputs where
  pdSck : Bool
  cmdReady : Bool
  busy : Bool
  frame : Frame
  value : Value
  valid : Bool
  done : Bool
  ready : Bool
  status : StatusWord
deriving DecidableEq, Repr

/-- What the block drives during the current cycle (R34, R160: everything a host can observe). -/
def State.outputs (s : State) : Outputs where
  pdSck := s.sck
  cmdReady := s.cmdReady
  busy := s.busy
  frame := s.frame
  value := s.value
  valid := s.valid
  done := s.done
  ready := s.ready
  status := s.status

/-- R90: `ready_now := (in.dout = 0) and (s.sck = 0)`. -/
def State.readyNow (s : State) : Bool := !s.inDout && !s.sck

/-- R90: `s'.nrdy <- s.nrdy or (not ready_now)`, the NRDY condition of R152. -/
def State.nrdyAfterRead (s : State) : Bool := s.nrdy || !s.readyNow

end Sys2Proof.Machine
end

