-- ==== Sys2Proof/Machine/Ops.lean ====
section
/-! DEFINITION. The operations of one clock edge that the commands and the phases share: what every
edge does, acceptance (40_command_cycle.md), the start of a READ and its phase edges (41_read.md),
the start of a power hold and its edge (43_power.md), and the reset edge (70_reset_and_hazards.md).
The block has no traps (R150, R156), so there is no operation that takes an exception or returns
from one. -/

namespace Sys2Proof.Machine

/-- What every edge with `rst = 0` does: `done` falls (R84), the next cycle begins (R11) with the
next inputs, and every other field holds (R12). -/
def State.tick (s : State) : State :=
  { s with done := false, port := s.port.tail, line := s.line.tail, cycle := s.cycle + 1 }

/-- R81, R170: the edge with `rst = 1`, from any state. -/
def State.resetEdge (s : State) : State :=
  { st := .idle, cnt := 0, g := 0, tmr := 0, sr := 0x000000#24, frame := 0x000000#24,
    sck := false, valid := false, done := false, nrdy := false, ill := false,
    params := s.params, port := s.port.tail, line := s.line.tail, cycle := s.cycle + 1 }

/-- R82: the command accepted at this edge: there is one if and only if `rst = 0`, `cmd_valid = 1`
and `st = IDLE`, and it is the decoded command word. -/
def State.accepted (s : State) : Option Instr :=
  if s.inRst = false ∧ s.inCmdValid = true ∧ s.st = .idle then some (decode s.inCmd) else none

/-- R90, acceptance edge of `READ g`. -/
def State.startRead (g : GainCode) (s : State) : State :=
  { s.tick with
    g := g, cnt := 0, tmr := 0, sr := 0x000000#24, sck := true, valid := false,
    nrdy := s.nrdyAfterRead, st := .hi }

/-- R120, R121, acceptance edge of a power command: drive the clock line to `level` and hold. -/
def State.startPower (level : Bool) (s : State) : State :=
  { s.tick with sck := level, tmr := 0, st := .pwr }

/-- R131, acceptance edge of a reserved word. -/
def State.setIll (s : State) : State := { s.tick with ill := true }

/-- R91: `{sr[22:0], dout}`. -/
def shiftIn (sr : Frame) (dout : Bool) : Frame := sr.extractLsb' 0 23 ++ BitVec.ofBool dout

/-- An edge inside a phase: the timer counts (R91, R92, R122, first branch). -/
def State.countTmr (s : State) : State := { s.tick with tmr := s.tmr + 1 }

/-- R91: the edge that ends the high half; a data pulse takes its sample here. -/
def State.endHigh (s : State) : State :=
  { s.tick with
    sr := if s.cnt.toNat < 24 then shiftIn s.sr s.inDout else s.sr,
    sck := false, tmr := 0, st := .lo }

/-- R92: the edge that ends a low half and begins the next pulse. -/
def State.nextPulse (s : State) : State :=
  { s.tick with cnt := s.cnt + 1, sck := true, tmr := 0, st := .hi }

/-- R92: the completion edge. -/
def State.complete (s : State) : State :=
  { s.tick with frame := s.sr, valid := true, done := true, cnt := 0, tmr := 0, st := .idle }

/-- R122: the edge that ends a power hold. -/
def State.endPower (s : State) : State := { s.tick with tmr := 0, st := .idle }

/-- R92: this edge completes a READ: the last low half of pulse `24 + g` ends, with `rst = 0`. -/
def State.completes (s : State) : Bool :=
  !s.inRst && decide (s.st = .lo) && decide (¬ s.tmr < s.params.tHalf - 1) &&
    decide (¬ s.cnt.toNat < 24 + s.g.toNat)

/-- R91: HI-phase edge. -/
def State.hiEdge (s : State) : State :=
  if s.tmr < s.params.tHalf - 1 then s.countTmr else s.endHigh

/-- R92: LO-phase edge. -/
def State.loEdge (s : State) : State :=
  if s.tmr < s.params.tHalf - 1 then s.countTmr
  else if s.cnt.toNat < 24 + s.g.toNat then s.nextPulse
  else s.complete

/-- R122: PWR-phase edge. -/
def State.pwrEdge (s : State) : State :=
  if s.tmr < s.params.tPwr - 1 then s.countTmr else s.endPower

/-- R85 (first point) and R86: the edge with `rst = 0` at which no command is accepted. -/
def State.phaseEdge (s : State) : State :=
  match s.st with
  | .idle => s.tick
  | .hi => s.hiEdge
  | .lo => s.loEdge
  | .pwr => s.pwrEdge

end Sys2Proof.Machine
end

