-- ==== Sys2Proof/Machine/Nop.lean ====
section
/-! DEFINITION. `NOP` (44_nop_reserved.md R130). Like every meaning, it is the acceptance edge of
the command: `step` calls it at the edge where R82 accepts the command (log entry 4). -/

namespace Sys2Proof.Machine

/-- R130: `skip`; only `done` becomes 0. -/
def execNop (s : State) : Host.Outcome State Fault Refusal := .next s.tick

end Sys2Proof.Machine
end

