-- ==== Sys2Proof/Machine/Power.lean ====
section
/-! DEFINITION. `POWER_DOWN` and `POWER_UP` (43_power.md R120, R121): the acceptance edge. The hold
is the PWR phase edge R122 (`State.pwrEdge`). -/

namespace Sys2Proof.Machine

/-- R120: drive the clock line high and hold. -/
def execPowerDown (s : State) : Host.Outcome State Fault Refusal := .next (s.startPower true)

/-- R121: drive the clock line low and hold. -/
def execPowerUp (s : State) : Host.Outcome State Fault Refusal := .next (s.startPower false)

end Sys2Proof.Machine
end

