-- ==== Sys2Proof/Machine/Read.lean ====
section
/-! DEFINITION. `READ g` (41_read.md R90): the acceptance edge. The rest of the read is the HI and
LO phase edges R91 and R92 (`State.hiEdge`, `State.loEdge`). -/

namespace Sys2Proof.Machine

/-- R90 with `g = 0`. -/
def execRead0 (s : State) : Host.Outcome State Fault Refusal :=
  .next (s.startRead (argField (encode .read0)))

/-- R90 with `g = 1`. -/
def execRead1 (s : State) : Host.Outcome State Fault Refusal :=
  .next (s.startRead (argField (encode .read1)))

/-- R90 with `g = 2`. -/
def execRead2 (s : State) : Host.Outcome State Fault Refusal :=
  .next (s.startRead (argField (encode .read2)))

end Sys2Proof.Machine
end

