-- ==== Sys2Proof/Machine/Reserved.lean ====
section
/-! DEFINITION. The ten reserved encodings (30_encoding.md R64, 44_nop_reserved.md R131). R64: "A
model treats an accepted reserved encoding exactly as 44_nop_reserved.md rule R131 says, not as a
refusal: the hardware defines its effect". -/

namespace Sys2Proof.Machine

/-- R131 for `0001`. -/
def execReserved0001 (s : State) : Host.Outcome State Fault Refusal := .next s.setIll

/-- R131 for `0010`. -/
def execReserved0010 (s : State) : Host.Outcome State Fault Refusal := .next s.setIll

/-- R131 for `0011`. -/
def execReserved0011 (s : State) : Host.Outcome State Fault Refusal := .next s.setIll

/-- R131 for `0111`, which is "READ with gain code 3": no pulse is issued. -/
def execReserved0111 (s : State) : Host.Outcome State Fault Refusal := .next s.setIll

/-- R131 for `1001`. -/
def execReserved1001 (s : State) : Host.Outcome State Fault Refusal := .next s.setIll

/-- R131 for `1010`. -/
def execReserved1010 (s : State) : Host.Outcome State Fault Refusal := .next s.setIll

/-- R131 for `1011`. -/
def execReserved1011 (s : State) : Host.Outcome State Fault Refusal := .next s.setIll

/-- R131 for `1101`. -/
def execReserved1101 (s : State) : Host.Outcome State Fault Refusal := .next s.setIll

/-- R131 for `1110`. -/
def execReserved1110 (s : State) : Host.Outcome State Fault Refusal := .next s.setIll

/-- R131 for `1111`. -/
def execReserved1111 (s : State) : Host.Outcome State Fault Refusal := .next s.setIll

end Sys2Proof.Machine
end

