-- ==== Sys2Proof/Machine/Dispatch.lean ====
section
/-! DEFINITION. The dispatch of an accepted command to its meaning (40_command_cycle.md R85). -/

namespace Sys2Proof.Machine

def exec (i : Instr) (s : State) : Host.Outcome State Fault Refusal :=
  match i with
  | .nop => Sys2Proof.Machine.execNop s
  | .reserved0001 => Sys2Proof.Machine.execReserved0001 s
  | .reserved0010 => Sys2Proof.Machine.execReserved0010 s
  | .reserved0011 => Sys2Proof.Machine.execReserved0011 s
  | .read0 => Sys2Proof.Machine.execRead0 s
  | .read1 => Sys2Proof.Machine.execRead1 s
  | .read2 => Sys2Proof.Machine.execRead2 s
  | .reserved0111 => Sys2Proof.Machine.execReserved0111 s
  | .powerDown => Sys2Proof.Machine.execPowerDown s
  | .reserved1001 => Sys2Proof.Machine.execReserved1001 s
  | .reserved1010 => Sys2Proof.Machine.execReserved1010 s
  | .reserved1011 => Sys2Proof.Machine.execReserved1011 s
  | .powerUp => Sys2Proof.Machine.execPowerUp s
  | .reserved1101 => Sys2Proof.Machine.execReserved1101 s
  | .reserved1110 => Sys2Proof.Machine.execReserved1110 s
  | .reserved1111 => Sys2Proof.Machine.execReserved1111 s

end Sys2Proof.Machine
end

