-- ==== Sys2Proof/Machine/Step.lean ====
section
/-! DEFINITION. One rising edge of `clk` (40_command_cycle.md R80 to R87), several of them, and
where a command is put so that the next step accepts it. -/

namespace Sys2Proof.Machine

/-- R80: `N(s, in)`, applied once at a rising edge. Reset has priority (R81); an accepted command is
performed (R82, R85); otherwise the phase rule applies and what the host presents is dropped
(R83, R86). -/
def step (s : State) : Host.Outcome State Fault Refusal :=
  if s.inRst then .next s.resetEdge
  else
    match s.accepted with
    | some i => exec i s
    | none => .next s.phaseEdge

/-- `n` edges. -/
def run : Nat → State → Host.Outcome State Fault Refusal
  | 0, s => .next s
  | n + 1, s =>
    match step s with
    | .next t => run n t
    | .fault r => .fault r
    | .refused r => .refused r

/-- The block fetches nothing (R37): a command word stands on the command port in a cycle in which
the block is IDLE and `rst` is 0 (R82). So the word `w` is driven with `cmd_valid = 1` in this
cycle, and the phase is IDLE; later cycles' inputs and all other state stay (log entry 5). -/
def State.withFetchWord (s : State) (_nbits w : Nat) : State :=
  { s.driving ⟨false, true, BitVec.ofNat 4 w⟩ with st := .idle }

end Sys2Proof.Machine
end

