-- ==== Sys2Proof/Machine/Script.lean ====
section
/-! DEFINITION. Command scripts (30_encoding.md R66, R67): the lines, and the inputs that timed lines
present in each cycle. -/

namespace Sys2Proof.Machine

/-- One line of a script, as R66 to R68 give them. -/
inductive Line where
  /-- an empty line, or a comment alone -/
  | blank
  /-- a command without a timing mark -/
  | command (w : Cmd)
  /-- `@n` and a command: present it during cycle `n` -/
  | timedCommand (n : Nat) (w : Cmd)
  /-- `@n rst` -/
  | timedReset (n : Nat)
  /-- `@n..m dout=b`; `@n dout=b` is the case `m = n` -/
  | timedDout (n m : Nat) (level : Bool)
  /-- `wait ready` -/
  | waitReady
  /-- `RESETPULSE` -/
  | resetPulse
  /-- `GAINSET g` -/
  | gainSet (g : GainCode)
  /-- `READFRAME g` -/
  | readFrame (g : GainCode)
deriving DecidableEq, Repr

/-- The command a line presents in cycle `c`. -/
def Line.commandIn (c : Nat) : Line → Option Cmd
  | .timedCommand n w => if n = c then some w else none
  | .blank => none
  | .command _ => none
  | .timedReset _ => none
  | .timedDout _ _ _ => none
  | .waitReady => none
  | .resetPulse => none
  | .gainSet _ => none
  | .readFrame _ => none

/-- The level a line gives `dout` in cycle `c`. -/
def Line.levelIn (c : Nat) : Line → Option Bool
  | .timedDout n m b => if n ≤ c ∧ c ≤ m then some b else none
  | .blank => none
  | .command _ => none
  | .timedCommand _ _ => none
  | .timedReset _ => none
  | .waitReady => none
  | .resetPulse => none
  | .gainSet _ => none
  | .readFrame _ => none

/-- Two lines that name the same cycle for one purpose; R67 gives such a pair no meaning (log
entry 10). -/
def Line.clashes : Line → Line → Bool
  | .timedCommand n _, .timedCommand m _ => decide (n = m)
  | .timedDout n m _, .timedDout n' m' _ => decide (n ≤ m' ∧ n' ≤ m)
  | _, _ => false

/-- A script of timed lines that R67 gives a meaning: every range is in order, no two lines clash. -/
abbrev Script := List Line

def Script.wellFormed : Script → Bool
  | [] => true
  | l :: r => (match l with | .timedDout n m _ => decide (n ≤ m) | _ => true) &&
      r.all (fun k => !l.clashes k) && Script.wellFormed r

/-- R67: the host's ports in cycle `c`: quiet in every cycle no line names. -/
def Script.portIn (sc : Script) (c : Nat) : PortIn :=
  let rst := decide (Line.timedReset c ∈ sc)
  match sc.findSome? (Line.commandIn c) with
  | some w => ⟨rst, true, w⟩
  | none => ⟨rst, false, 0⟩

/-- R67: the level of `dout` in cycle `c`: "`dout` keeps the last level a line gave it, or 0 before
the first such line". -/
def Script.levelIn (sc : Script) : Nat → Bool
  | 0 => (sc.findSome? (Line.levelIn 0)).getD false
  | c + 1 => (sc.findSome? (Line.levelIn (c + 1))).getD (Script.levelIn sc c)

/-- The next `n` cycles are those of the script, from the current cycle's number on. -/
def Script.load (sc : Script) (n : Nat) (s : State) : State :=
  { s with
    port := (List.range n).map (fun j => sc.portIn (s.cycle + j))
    line := (List.range n).map (fun j => sc.levelIn (s.cycle + j)) }

end Sys2Proof.Machine
end

