-- ==== Sys2Proof/WellFormed.lean ====
section
/-! DEFINITION. What is well formed. `Instr` has no operands and the hardware defines the effect of
every word (R64), so every term of `Instr` is an instruction; the checks are on a command word's
fields (R60, R62, R63) and on the parameters (R8). -/

namespace Sys2Proof

/-- R60: for the operation field of READ (`01`), the argument is a gain code, and R63 allows 0, 1
and 2; for every other operation it "must be `2'b00`". The word is one of the six legal ones. -/
def legalWord (w : Cmd) : Bool :=
  if w.extractLsb' 2 2 = 0b01#2 then decide (w.extractLsb' 0 2 ≠ 0b11#2)
  else decide (w.extractLsb' 0 2 = 0b00#2)

/-- R64: the ten reserved instructions. -/
def Instr.reserved : Instr → Bool
  | .nop => false
  | .reserved0001 => true
  | .reserved0010 => true
  | .reserved0011 => true
  | .read0 => false
  | .read1 => false
  | .read2 => false
  | .reserved0111 => true
  | .powerDown => false
  | .reserved1001 => true
  | .reserved1010 => true
  | .reserved1011 => true
  | .powerUp => false
  | .reserved1101 => true
  | .reserved1110 => true
  | .reserved1111 => true

/-- R6, R7, R8: the pair of numbers is a configuration of this hardware. -/
def paramsOk (tHalf tPwr : Nat) : Bool :=
  match Params.elaborate tHalf tPwr with
  | .ok _ => true
  | .error _ => false

end Sys2Proof
end

