-- ==== Sys2Proof/Machine/Assembler.lean ====
section
/-! DEFINITION. The written form of scripts (30_encoding.md R66 to R68): a line of text to a script
line, and an instruction to its text. Text is a list of characters. -/

namespace Sys2Proof.Machine

/-- Why a line of text is no script line. -/
inductive AsmReject where
  /-- no mnemonic, pseudo-instruction or timing form of R66 to R68 reads like this -/
  | notALine (line : List Char)
deriving DecidableEq, Repr

/-- R66: "A `;` begins a comment." -/
def stripComment (l : List Char) : List Char := l.takeWhile (fun c => c != ';')

/-- R66: "Mnemonics are case-insensitive." -/
def upperCase (l : List Char) : List Char := l.map Char.toUpper

/-- The words of a line, between spaces and tabs; `cur` is the word read so far. -/
def wordsFrom (cur : List Char) : List Char → List (List Char)
  | [] => if cur = [] then [] else [cur]
  | c :: r =>
    if c = ' ' ∨ c = '\t' then
      if cur = [] then wordsFrom [] r else cur :: wordsFrom [] r
    else wordsFrom (cur ++ [c]) r

/-- R66: "the gain code for READ as a decimal `0`, `1` or `2`". -/
def gainDigit (l : List Char) : Option GainCode :=
  if l = ['0'] then some 0 else if l = ['1'] then some 1 else if l = ['2'] then some 2 else none

/-- A binary digit. -/
def binDigit (c : Char) : Option Bool :=
  if c = '0' then some false else if c = '1' then some true else none

/-- R66: a reserved word `0bNNNN`, in binary (log entry 12). -/
def reservedWord : List Char → Option Cmd
  | ['0', 'B', a, b, c, d] =>
    match binDigit a, binDigit b, binDigit c, binDigit d with
    | some a, some b, some c, some d =>
      let w : Cmd := BitVec.ofBool a ++ BitVec.ofBool b ++ BitVec.ofBool c ++ BitVec.ofBool d
      if (decode w).reserved then some w else none
    | _, _, _, _ => none
  | _ => none

/-- A cycle number in decimal; `acc` is the number read so far. -/
def decimalFrom (acc : Nat) : List Char → Option Nat
  | [] => some acc
  | c :: r =>
    if '0' ≤ c ∧ c ≤ '9' then decimalFrom (acc * 10 + (c.toNat - '0'.toNat)) r else none

def decimal : List Char → Option Nat
  | [] => none
  | c :: r => decimalFrom 0 (c :: r)

/-- R67: `n` or `n..m`. -/
def cycleRange (l : List Char) : Option (Nat × Nat) :=
  match l.dropWhile (fun c => c != '.') with
  | [] => (decimal l).map (fun n => (n, n))
  | '.' :: '.' :: r =>
    match decimal (l.takeWhile (fun c => c != '.')), decimal r with
    | some n, some m => some (n, m)
    | _, _ => none
  | _ => none

/-- R66: a command, from its upper-case words. -/
def commandOf : List (List Char) → Option Cmd
  | [m] =>
    if m = "NOP".toList then some (encode .nop)
    else if m = "POWER_DOWN".toList then some (encode .powerDown)
    else if m = "POWER_UP".toList then some (encode .powerUp)
    else if m = "READ.A128".toList then some (encode .read0)
    else if m = "READ.B32".toList then some (encode .read1)
    else if m = "READ.A64".toList then some (encode .read2)
    else none
  | [m, a] =>
    if m = "READ".toList then
      match gainDigit a with
      | some g => some (0b01#2 ++ g)
      | none => none
    else if m = ".CMD".toList then reservedWord a
    else none
  | _ => none

/-- R67, R68: a line without a timing mark, from its upper-case words. -/
def untimedOf (ws : List (List Char)) : Option Line :=
  match commandOf ws with
  | some w => some (.command w)
  | none =>
    match ws with
    | [] => some .blank
    | [m] => if m = "RESETPULSE".toList then some .resetPulse else none
    | [m, a] =>
      if m = "WAIT".toList ∧ a = "READY".toList then some .waitReady
      else if m = "GAINSET".toList then (gainDigit a).map .gainSet
      else if m = "READFRAME".toList then (gainDigit a).map .readFrame
      else none
    | _ => none

/-- R67: what stands after `@n` or `@n..m`. R67 gives `@n..m` before `dout` only; that a range of one
cycle, `@n..n`, is read as `@n` before a command or `rst` too, and that a longer range there is
rejected, is the model's choice (DESIGN CHOICE, log entry 12). -/
def timedOf (n m : Nat) (ws : List (List Char)) : Option Line :=
  if ws = ["DOUT=0".toList] then some (.timedDout n m false)
  else if ws = ["DOUT=1".toList] then some (.timedDout n m true)
  else if n = m ∧ ws = ["RST".toList] then some (.timedReset n)
  else if n = m then (commandOf ws).map (.timedCommand n)
  else none

/-- The script line of upper-case words. -/
def lineOf : List (List Char) → Option Line
  | ('@' :: r) :: ws =>
    match cycleRange r with
    | some (n, m) => timedOf n m ws
    | none => none
  | ws => untimedOf ws

/-- One line of text. -/
def parseLine (l : List Char) : Except AsmReject Line :=
  match lineOf (wordsFrom [] (upperCase (stripComment l))) with
  | some k => .ok k
  | none => .error (.notALine l)

/-- Every line of a script, or the first that is none. -/
def parseScript : List (List Char) → Except AsmReject Script
  | [] => .ok []
  | l :: r =>
    match parseLine l with
    | .error e => .error e
    | .ok k =>
      match parseScript r with
      | .error e => .error e
      | .ok ks => .ok (k :: ks)

/-- The text of an instruction (R62, R66). -/
def printInstr : Instr → List Char
  | .nop => "NOP".toList
  | .reserved0001 => ".cmd 0b0001".toList
  | .reserved0010 => ".cmd 0b0010".toList
  | .reserved0011 => ".cmd 0b0011".toList
  | .read0 => "READ 0".toList
  | .read1 => "READ 1".toList
  | .read2 => "READ 2".toList
  | .reserved0111 => ".cmd 0b0111".toList
  | .powerDown => "POWER_DOWN".toList
  | .reserved1001 => ".cmd 0b1001".toList
  | .reserved1010 => ".cmd 0b1010".toList
  | .reserved1011 => ".cmd 0b1011".toList
  | .powerUp => "POWER_UP".toList
  | .reserved1101 => ".cmd 0b1101".toList
  | .reserved1110 => ".cmd 0b1110".toList
  | .reserved1111 => ".cmd 0b1111".toList

end Sys2Proof.Machine
end

