-- ==== Sys2Proof/Machine/Duties.lean ====
section
/-! DEFINITION. A monitor beside the machine, not part of it: "The block does not track it" (R94).
It keeps what the spec says of the converter's channel and gain selection (41_read.md R94,
70_reset_and_hazards.md R178) and of the reset pulse a host owes (R179). Where the source says
nothing of the converter (I8, I12, I13), the selection is `none` (log entry 14). -/

namespace Sys2Proof.Machine

structure Monitor where
  /-- the gain code that selected the converter's next conversion, where it is known -/
  selection : Option GainCode
  /-- the gain code that selected the conversion the last completed frame came from -/
  frameSelection : Option GainCode
  /-- the READ in flight was accepted with `ready = 0` (I2, I13) -/
  malformed : Bool
  /-- a reset interrupted a READ and no reset pulse has followed (R179) -/
  owesPulse : Bool
  /-- a POWER_DOWN was accepted and its POWER_UP is still to come (R68, RESETPULSE) -/
  halfPulse : Bool
deriving DecidableEq, Repr

/-- Nothing is known of the converter (I8). -/
def Monitor.start : Monitor := ⟨none, none, false, false, false⟩

/-- R178, I2, I12: the frame that completes now, and the selection its pulses latch, can be told. -/
def Monitor.trusts (m : Monitor) : Bool := !m.malformed && !m.owesPulse

/-- An edge with `rst = 1` (R172, R173): it cuts a READ short, or wakes the converter. -/
def Monitor.onReset (m : Monitor) (s : State) : Monitor where
  selection := if s.sck = true ∨ s.st = .hi ∨ s.st = .lo then none else m.selection
  frameSelection := none
  malformed := false
  owesPulse := m.owesPulse || decide (s.st = .hi) || decide (s.st = .lo)
  halfPulse := false

/-- A command is accepted. -/
def Monitor.onAccept (m : Monitor) (s : State) (i : Instr) : Monitor :=
  match gainOf i with
  | some _ => { m with malformed := !s.ready, halfPulse := false }
  | none =>
    if i = .powerDown then { m with selection := none, halfPulse := true }
    else if i = .powerUp then { m with owesPulse := m.owesPulse && !m.halfPulse, halfPulse := false }
    else m

/-- A READ completes (R94): its frame came from the selection in force, and its own gain code
selects the next conversion. -/
def Monitor.onComplete (m : Monitor) (s : State) : Monitor :=
  { m with
    frameSelection := if m.trusts then m.selection else none
    selection := if m.trusts then some s.g else none
    malformed := false }

/-- The monitor after the edge that ends the cycle of `s`. -/
def Monitor.watch (m : Monitor) (s : State) : Monitor :=
  if s.inRst then m.onReset s
  else
    match s.accepted with
    | some i => m.onAccept s i
    | none => if s.completes then m.onComplete s else m

/-- R179: a READ may be presented. -/
def Monitor.readAllowed (m : Monitor) : Bool := !m.owesPulse

/-- The monitor after `n` edges. -/
def Monitor.watchFor : Nat → Monitor → State → Monitor
  | 0, m, _ => m
  | n + 1, m, s =>
    match step s with
    | .next t => watchFor n (m.watch s) t
    | .fault _ => m
    | .refused _ => m

end Sys2Proof.Machine
end

