-- ==== Sys2Proof/Machine/HostProgram.lean ====
section
/-! DEFINITION. The host that drives the command port: what it does in a cycle, the
pseudo-instructions (30_encoding.md R68) and the boot sequence (70_reset_and_hazards.md R175). "These
are host behaviour, not block behaviour" (R68): the block is run by `step` alone. -/

namespace Sys2Proof.Machine

inductive HostAct where
  /-- present a command during one cycle -/
  | present (w : Cmd)
  /-- keep presenting a command until the block shows `cmd_ready = 1` in a presenting cycle (R176) -/
  | hold (w : Cmd)
  /-- assert `rst` during one cycle -/
  | assertRst
  /-- go on in the first cycle with `ready = 1` -/
  | waitReady
  /-- go on in the first cycle with `cmd_ready = 1` -/
  | waitCmdReady
  /-- go on in the first cycle with `done = 1`, and take `value` in that cycle; R68 and R175 let a host
  take `frame` or `value`, and that this host takes `value` is the model's choice (log entry 11) -/
  | takeFrame
  /-- go on in cycle `n`; where cycle `n` is already past, go on at once, late: the model's choice
  (log entry 11) -/
  | untilCycle (n : Nat)
deriving DecidableEq, Repr

/-- What the host does in one cycle. -/
structure HostTurn where
  port : PortIn
  rest : List HostAct
  taken : List Value
deriving DecidableEq, Repr

/-- The host's turn in the cycle of `s`. A wait that ends does so within the cycle, and the act
after it is done in that same cycle (R67: "the host presents the next command in the first cycle
with `ready = 1`"). Log entry 11 names what is the model's choice here. -/
def hostTurn (s : State) : List HostAct → HostTurn
  | [] => ⟨PortIn.quiet, [], []⟩
  | .present w :: r => ⟨⟨false, true, w⟩, r, []⟩
  | .hold w :: r => ⟨⟨false, true, w⟩, if s.cmdReady then r else .hold w :: r, []⟩
  | .assertRst :: r => ⟨⟨true, false, 0⟩, r, []⟩
  | .waitReady :: r => if s.ready then hostTurn s r else ⟨PortIn.quiet, .waitReady :: r, []⟩
  | .waitCmdReady :: r => if s.cmdReady then hostTurn s r else ⟨PortIn.quiet, .waitCmdReady :: r, []⟩
  | .takeFrame :: r =>
    if s.done then { hostTurn s r with taken := s.value :: (hostTurn s r).taken }
    else ⟨PortIn.quiet, .takeFrame :: r, []⟩
  | .untilCycle n :: r => if n ≤ s.cycle then hostTurn s r else ⟨PortIn.quiet, .untilCycle n :: r, []⟩

/-- The block and the host that drives it. -/
structure System where
  block : State
  acts : List HostAct
  taken : List Value
deriving DecidableEq, Repr

/-- One edge of the block under its host. -/
def System.step (y : System) : Option System :=
  match Machine.step (y.block.driving (hostTurn y.block y.acts).port) with
  | .next b => some ⟨b, (hostTurn y.block y.acts).rest, y.taken ++ (hostTurn y.block y.acts).taken⟩
  | .fault _ => none
  | .refused _ => none

/-- `n` edges of the block under its host. -/
def System.run : Nat → System → Option System
  | 0, y => some y
  | n + 1, y =>
    match y.step with
    | some z => System.run n z
    | none => none

/-- The word of `READ g`, `{2'b01, g}` (R90). -/
def readWord (g : GainCode) : Cmd := 0b01#2 ++ g

/-- R68: POWER_DOWN, "then `POWER_UP` in the first cycle with `cmd_ready = 1`". -/
def resetPulse : List HostAct :=
  [.present (encode .powerDown), .waitCmdReady, .present (encode .powerUp)]

/-- R68: "`wait ready`, then `READ g`. The host ignores the resulting frame". -/
def gainSet (g : GainCode) : List HostAct := [.waitReady, .present (readWord g)]

/-- R68: "`wait ready`, then `READ g`, then wait for `done = 1` and take `frame` or `value`". -/
def readFrame (g : GainCode) : List HostAct := [.waitReady, .present (readWord g), .takeFrame]

/-- R175, steps 1 to 3. Step 1 asks for `rst = 1` for at least one edge; that this host asserts it for
exactly one cycle is the model's choice (log entry 11). -/
def boot (g : GainCode) : List HostAct := .assertRst :: (resetPulse ++ gainSet g)

/-- R175, step 4: `n` readings. -/
def readings (g : GainCode) : Nat → List HostAct
  | 0 => []
  | n + 1 => readFrame g ++ readings g n

/-- What the host does for a script line. A `dout` line is the converter's side, not the host's. A timed
line waits for its cycle after a `wait ready` that ended before it too, and is then done whether or not
`ready` is still 1: the model's choice, as R67 asks for both cycles (DESIGN CHOICE, log entry 11). -/
def Line.acts : Line → List HostAct
  | .blank => []
  | .command w => [.present w]
  | .timedCommand n w => [.untilCycle n, .present w]
  | .timedReset n => [.untilCycle n, .assertRst]
  | .timedDout _ _ _ => []
  | .waitReady => [.waitReady]
  | .resetPulse => Machine.resetPulse
  | .gainSet g => Machine.gainSet g
  | .readFrame g => Machine.readFrame g

/-- What the host does for a script, line by line. -/
def Script.acts (sc : Script) : List HostAct := sc.flatMap Line.acts

/-- R177 as a property of a host's acts: every READ is presented right after a `wait ready`. -/
def readsGuarded : List HostAct → Bool
  | [] => true
  | .present w :: r => (gainOf (decode w)).isNone && readsGuarded r
  | .hold w :: r => (gainOf (decode w)).isNone && readsGuarded r
  | .waitReady :: .present _ :: r => readsGuarded r
  | .waitReady :: r => readsGuarded r
  | .assertRst :: r => readsGuarded r
  | .waitCmdReady :: r => readsGuarded r
  | .takeFrame :: r => readsGuarded r
  | .untilCycle _ :: r => readsGuarded r

end Sys2Proof.Machine
end

