-- ==== Sys2Proof/Machine/WholeStep.lean ====
section
/-! DEFINITION. The whole next-state function as 40_command_cycle.md R87 writes it in one place: on the
tuple of R20 alone, with the inputs of the cycle (R33) and the parameters as arguments. `step` is
built from the rules it was composed of; "where this block and those rules differ, those rules
govern" (R87). -/

namespace Sys2Proof.Machine

/-- The tuple of R20. -/
structure Block where
  st : Phase
  cnt : PulseIdx
  g : GainCode
  tmr : Nat
  sr : Frame
  frame : Frame
  sck : Bool
  valid : Bool
  done : Bool
  nrdy : Bool
  ill : Bool
deriving DecidableEq, Repr

/-- The inputs of one cycle (R33). -/
structure Inputs where
  rst : Bool
  cmdValid : Bool
  cmd : Cmd
  dout : Bool
deriving DecidableEq, Repr

/-- The tuple of a state. -/
def State.block (s : State) : Block :=
  ⟨s.st, s.cnt, s.g, s.tmr, s.sr, s.frame, s.sck, s.valid, s.done, s.nrdy, s.ill⟩

/-- The inputs of the current cycle of a state. -/
def State.inputs (s : State) : Inputs := ⟨s.inRst, s.inCmdValid, s.inCmd, s.inDout⟩

/-- R170: `RESET_STATE`. -/
def resetState : Block := ⟨.idle, 0, 0, 0, 0, 0, false, false, false, false, false⟩

/-- R87: `N(s, in)`. -/
def wholeStep (p : Params) (i : Inputs) (s : Block) : Block :=
  if i.rst then resetState
  else
    let s' : Block := { s with done := false }
    match s.st with
    | .idle =>
      if i.cmdValid then
        if i.cmd = 0b0000#4 then s'
        else if i.cmd = 0b0100#4 ∨ i.cmd = 0b0101#4 ∨ i.cmd = 0b0110#4 then
          let readyNow := !i.dout && !s.sck
          { s' with
            g := i.cmd.extractLsb' 0 2, cnt := 0, tmr := 0, sr := 0, sck := true, valid := false,
            nrdy := s.nrdy || !readyNow, st := .hi }
        else if i.cmd = 0b1000#4 then { s' with sck := true, tmr := 0, st := .pwr }
        else if i.cmd = 0b1100#4 then { s' with sck := false, tmr := 0, st := .pwr }
        else { s' with ill := true }
      else s'
    | .hi =>
      if s.tmr < p.tHalf - 1 then { s' with tmr := s.tmr + 1 }
      else if s.cnt.toNat < 24 then
        { s' with
          sr := s.sr.extractLsb' 0 23 ++ BitVec.ofBool i.dout, sck := false, tmr := 0, st := .lo }
      else { s' with sck := false, tmr := 0, st := .lo }
    | .lo =>
      if s.tmr < p.tHalf - 1 then { s' with tmr := s.tmr + 1 }
      else if s.cnt.toNat < 24 + s.g.toNat then
        { s' with cnt := s.cnt + 1, sck := true, tmr := 0, st := .hi }
      else { s' with frame := s.sr, valid := true, done := true, cnt := 0, tmr := 0, st := .idle }
    | .pwr =>
      if s.tmr < p.tPwr - 1 then { s' with tmr := s.tmr + 1 }
      else { s' with tmr := 0, st := .idle }

end Sys2Proof.Machine
end

