-- ==== Sys2Proof/Safety.lean ====
section
/-! DEFINITION. What claims about the block are stated with: the invariant of 10_state.md R32, the
premises on the inputs of a run, and the host's duties that bind one cycle
(70_reset_and_hazards.md R176, R177). -/

namespace Sys2Proof.Machine

/-- R32: the number of data samples taken so far, `min(24, cnt + (1 if st = LO else 0))`. -/
def State.samples (s : State) : Nat := min 24 (s.cnt.toNat + if s.st = .lo then 1 else 0)

/-- The block is in a pulse of a READ. -/
abbrev State.reading (s : State) : Prop := s.st = .hi ∨ s.st = .lo

/-- The invariant of R32, in its order, but for what R32's fifth point says of the history of
`dout` (stated over runs); then the ranges of R22 and R23 and what R29 gives of `done`. -/
structure Inv (s : State) : Prop where
  idle_clear : s.st = .idle → s.tmr = 0 ∧ s.cnt = 0
  reading_range : s.reading →
    s.tmr < s.params.tHalf ∧ s.g.toNat ≤ 2 ∧ s.cnt.toNat ≤ 24 + s.g.toNat
  hi_high : s.st = .hi → s.sck = true
  lo_low : s.st = .lo → s.sck = false
  pwr_range : s.st = .pwr → s.tmr < s.params.tPwr ∧ s.cnt = 0
  sr_clear_above : s.reading → s.sr.toNat < 2 ^ s.samples
  reading_invalid : s.reading → s.valid = false
  gain_range : s.g.toNat ≤ 2
  cnt_range : s.cnt.toNat ≤ 26
  done_idle : s.done = true → s.st = .idle ∧ s.valid = true ∧ s.sck = false

/-- A READ with gain code `g` is accepted at the coming edge. -/
abbrev State.startsRead (s : State) (g : GainCode) : Prop := s.accepted.bind gainOf = some g

/-- `rst = 0` in the `n` cycles from `i` cycles on. -/
def State.noReset (s : State) (i n : Nat) : Prop := ∀ j, j < n → (s.portAt (i + j)).rst = false

/-- R176, its first form: a command is presented only with `cmd_ready = 1` and `rst = 0`. -/
def State.presentsOnlyWhenAcceptable (s : State) : Prop :=
  s.inCmdValid = true → s.cmdReady = true ∧ s.inRst = false

/-- R177: a READ is presented only with `ready = 1`. -/
def State.readsOnlyWhenReady (s : State) : Prop :=
  s.inCmdValid = true → gainOf (decode s.inCmd) ≠ none → s.ready = true

/-- No reserved word is presented. -/
def State.presentsNoReserved (s : State) : Prop :=
  s.inCmdValid = true → (decode s.inCmd).reserved = false

/-- `p` holds in this cycle and in each of the next ones, up to the cycle before edge `n`. -/
def Along (p : State → Prop) : Nat → State → Prop
  | 0, _ => True
  | n + 1, s => p s ∧ ∀ t, step s = .next t → Along p n t

/-- How often `pd_sck` falls at the next `n` edges. -/
def falls : Nat → State → Nat
  | 0, _ => 0
  | n + 1, s =>
    match step s with
    | .next t => (if s.sck && !t.sck then 1 else 0) + falls n t
    | .fault _ => 0
    | .refused _ => 0

end Sys2Proof.Machine
end

