-- ==== Sys2Proof/Certificates/Slice0/Obligations.lean ====
section
/-! DEFINITION. The statements for the provers. A state `s` is the state of one cycle with the inputs
of that cycle and the next ones; `run (1 + m) s` is the state `m` cycles after the coming edge, so
where a command is accepted at edge `k`, `run (1 + m) s` is cycle `k + m` and `s.doutAt (1 + m)` is
`dout` in that cycle (00_scope.md R11). -/

open Sys2Proof Sys2Proof.Machine

/-! ### Encoding, parameters and script text -/

/-- R62: the sixteen words, and which of them are legal. -/
def Obligations.OpcodeMapDecodes : Prop :=
  decode 0b0000#4 = .nop ∧ decode 0b0001#4 = .reserved0001 ∧ decode 0b0010#4 = .reserved0010 ∧
  decode 0b0011#4 = .reserved0011 ∧ decode 0b0100#4 = .read0 ∧ decode 0b0101#4 = .read1 ∧
  decode 0b0110#4 = .read2 ∧ decode 0b0111#4 = .reserved0111 ∧ decode 0b1000#4 = .powerDown ∧
  decode 0b1001#4 = .reserved1001 ∧ decode 0b1010#4 = .reserved1010 ∧
  decode 0b1011#4 = .reserved1011 ∧ decode 0b1100#4 = .powerUp ∧ decode 0b1101#4 = .reserved1101 ∧
  decode 0b1110#4 = .reserved1110 ∧ decode 0b1111#4 = .reserved1111 ∧
  ∀ w : Cmd, legalWord w = !(decode w).reserved

/-- R60, R62: encoding and decoding are inverse to each other on words. The clauses on numbers
(`decodeTableWord`: any `nbits`, and 16 or more gives none) are the model's reading (DEDUCED, log
entry 9). -/
def Obligations.DecodeAndEncodeAgree : Prop :=
  (∀ i : Instr, decode (encode i) = i) ∧ (∀ w : Cmd, encode (decode w) = w) ∧
  (∀ (i : Instr) (n : Nat), decodeTableWord n (encode i).toNat = some i) ∧
  ∀ n w : Nat, 16 ≤ w → decodeTableWord n w = none

/-- R8: numbers become a configuration exactly when neither is 0. -/
def Obligations.ElaborationRefusesZero : Prop :=
  ∀ h p : Nat,
    (∀ q, Params.elaborate h p = .ok q → q.tHalf = h ∧ q.tPwr = p) ∧
    ((∃ q, Params.elaborate h p = .ok q) ↔ 1 ≤ h ∧ 1 ≤ p)

/-- R63: the gain code of a READ is `cmd[1:0]`, and what it selects. -/
def Obligations.GainCodeTable : Prop :=
  (∀ (i : Instr) (g : GainCode), gainOf i = some g ↔ encode i = 0b01#2 ++ g ∧ g ≠ 3) ∧
  gainPulses 0 = 1 ∧ totalPulses 0 = 25 ∧ nextConversion 0 = some (.a, 128) ∧
  gainPulses 1 = 2 ∧ totalPulses 1 = 26 ∧ nextConversion 1 = some (.b, 32) ∧
  gainPulses 2 = 3 ∧ totalPulses 2 = 27 ∧ nextConversion 2 = some (.a, 64) ∧
  gainOf (decode 0b0111#4) = none ∧ nextConversion 3 = none

/-- R66: an instruction's text, with any comment after it, assembles to its word; so do the three
aliases. The spacing of the text is the model's choice (DESIGN CHOICE, log entry 12). -/
def Obligations.PrintedInstructionAssembles : Prop :=
  (∀ (i : Instr) (comment : List Char),
    parseLine (printInstr i) = .ok (.command (encode i)) ∧
    parseLine (printInstr i ++ ';' :: comment) = .ok (.command (encode i))) ∧
  parseLine "READ.A128".toList = .ok (.command (encode .read0)) ∧
  parseLine "READ.B32".toList = .ok (.command (encode .read1)) ∧
  parseLine "READ.A64".toList = .ok (.command (encode .read2))

/-- R66 says that mnemonics are case-insensitive; that letter case does not matter in any other word of
a line (keywords, `rst`, `dout`, `.cmd`) either is the model's choice (DESIGN CHOICE, log entry 12). -/
def Obligations.AssemblerIgnoresCase : Prop :=
  ∀ (l : List Char) (k : Line), parseLine l = .ok k →
    parseLine (l.map Char.toLower) = .ok k ∧ parseLine (l.map Char.toUpper) = .ok k

/-- R67: what a well-formed script presents in each cycle. Which scripts are well formed is the model's
choice (DESIGN CHOICE, log entry 10). -/
def Obligations.ScriptPresentsItsLines : Prop :=
  ∀ sc : Script, sc.wellFormed = true → ∀ c : Nat,
    (∀ w, Line.timedCommand c w ∈ sc →
      (sc.portIn c).cmdValid = true ∧ (sc.portIn c).cmd = w) ∧
    ((sc.portIn c).rst = true ↔ Line.timedReset c ∈ sc) ∧
    ((∀ w, Line.timedCommand c w ∉ sc) → (sc.portIn c).cmdValid = false) ∧
    (∀ n m b, Line.timedDout n m b ∈ sc → n ≤ c → c ≤ m → sc.levelIn c = b) ∧
    ((∀ n m b, Line.timedDout n m b ∈ sc → ¬ (n ≤ c + 1 ∧ c + 1 ≤ m)) →
      sc.levelIn (c + 1) = sc.levelIn c) ∧
    ((∀ n m b, Line.timedDout n m b ∈ sc → c < n) → sc.levelIn c = false)

/-- R67: a loaded script is what the block sees. The loading is the model's (DESIGN CHOICE, log
entries 2, 3). -/
def Obligations.LoadedScriptIsSeen : Prop :=
  ∀ (sc : Script) (n j : Nat) (s : State), j < n →
    (sc.load n s).portAt j = sc.portIn (s.cycle + j) ∧
    (sc.load n s).doutAt j = sc.levelIn (s.cycle + j)

/-! ### Reset -/

/-- R170: the edge with `rst = 1`, from any state, and what is seen in the cycle after it. -/
def Obligations.ResetEdgeFromAnyState : Prop :=
  ∀ s : State, s.inRst = true → ∃ t, step s = .next t ∧
    t.st = .idle ∧ t.cnt = 0 ∧ t.g = 0 ∧ t.tmr = 0 ∧ t.sr = 0x000000#24 ∧ t.frame = 0x000000#24 ∧
    t.sck = false ∧ t.valid = false ∧ t.done = false ∧ t.nrdy = false ∧ t.ill = false ∧
    t.outputs.pdSck = false ∧ t.outputs.busy = false ∧ t.outputs.cmdReady = true ∧
    t.outputs.frame = 0x000000#24 ∧ t.outputs.value = 0x00000000#32 ∧
    t.outputs.status = 0b0#1 ++ BitVec.ofBool (!t.inDout) ++ 0b000000#6 ∧
    (t.inRst = false → t.inCmdValid = true → t.accepted = some (decode t.inCmd))

/-- R171: holding `rst = 1` for any number of cycles keeps the block in the reset state. -/
def Obligations.HeldResetKeepsResetState : Prop :=
  ∀ (s : State) (n : Nat), (∀ j, j ≤ n → (s.portAt j).rst = true) →
    ∃ t, run (n + 1) s = .next t ∧
      t.st = .idle ∧ t.cnt = 0 ∧ t.g = 0 ∧ t.tmr = 0 ∧ t.sr = 0 ∧ t.frame = 0 ∧
      t.sck = false ∧ t.valid = false ∧ t.done = false ∧ t.nrdy = false ∧ t.ill = false

/-- R172: a reset during a READ drives the clock line low and loses the old frame, and no `done`
follows while no further command is accepted and no READ is in flight. -/
def Obligations.ResetAbortsRead : Prop :=
  ∀ (s : State) (n : Nat), s.reading → s.inRst = true →
    (∀ j, j < n → (s.portAt (1 + j)).cmdValid = false) →
    ∃ t, run (1 + n) s = .next t ∧ t.st = .idle ∧ t.sck = false ∧ t.frame = 0 ∧ t.sr = 0 ∧
      t.valid = false ∧ t.done = false

/-! ### Acceptance and dropping -/

/-- R82: when a command is accepted, and that it is decoded and takes effect at that edge: a step
runs the decoded instruction. -/
def Obligations.AcceptedCommandIsExecuted : Prop :=
  (∀ (s : State) (i : Instr), s.accepted = some i ↔
    s.inRst = false ∧ s.inCmdValid = true ∧ s.st = .idle ∧ i = decode s.inCmd) ∧
  (∀ (s : State) (i : Instr), s.accepted = some i ↔
    s.inRst = false ∧ s.inCmdValid = true ∧ s.outputs.cmdReady = true ∧ i = decode s.inCmd) ∧
  ∀ (s : State) (i : Instr), s.accepted = some i → step s = exec i s

/-- The model's own loading of one word (log entry 5): the next step accepts and executes it. -/
def Obligations.LoadedWordIsExecuted : Prop :=
  ∀ (s : State) (i : Instr) (n : Nat),
    (s.withFetchWord n (encode i).toNat).accepted = some i ∧
    step (s.withFetchWord n (encode i).toNat) = exec i (s.withFetchWord n (encode i).toNat)

/-- R83, R61: a command presented while busy or in reset changes nothing, and with `cmd_valid = 0`
the word changes nothing in any state. -/
def Obligations.UnacceptedCommandChangesNothing : Prop :=
  (∀ (s : State) (v : Bool) (c d : Cmd), s.st ≠ .idle ∨ s.inRst = true →
    step (s.driving ⟨s.inRst, v, c⟩) = step (s.driving ⟨s.inRst, false, d⟩)) ∧
  ∀ (s : State) (c d : Cmd),
    step (s.driving ⟨s.inRst, false, c⟩) = step (s.driving ⟨s.inRst, false, d⟩)

/-- R85, first point. -/
def Obligations.IdleEdgeWithoutCommand : Prop :=
  ∀ s : State, s.inRst = false → s.st = .idle → s.inCmdValid = false →
    ∃ t, step s = .next t ∧ t.block = { s.block with done := false }

/-- R150, R80, R88: no state and no command stops the machine. -/
def Obligations.NothingStopsTheBlock : Prop :=
  (∀ (i : Instr) (s : State), ∃ t, exec i s = .next t) ∧
  (∀ s : State, ∃ t, step s = .next t) ∧ ∀ (n : Nat) (s : State), ∃ t, run n s = .next t

/-- R87: one step is the whole step function `N` of the spec, applied to the tuple of R20, the inputs
of the cycle and the parameters, and to nothing else. -/
def Obligations.StepIsTheWholeStepFunction : Prop :=
  ∀ s : State, ∃ t, step s = .next t ∧ t.block = wholeStep s.params s.inputs s.block

/-! ### The commands: result and frame. `block` is the whole tuple of R20, so every field that a right
side does not name is unchanged; of the model's own fields, see `ParametersFixedInputsAdvance`. -/

/-- R130 -/
def Obligations.NopOnlyClearsDone : Prop :=
  ∀ s : State, s.accepted = some .nop →
    ∃ t, exec .nop s = .next t ∧ t.block = { s.block with done := false }

/-- R90, acceptance edge, for the three READs. -/
def Obligations.ReadAcceptanceEdge : Prop :=
  ∀ (i : Instr) (g : GainCode), (i, g) ∈ [(Instr.read0, 0), (.read1, 1), (.read2, 2)] →
    ∀ s : State, s.accepted = some i →
      g = argField s.inCmd ∧
      ∃ t, exec i s = .next t ∧ t.block = { s.block with
        g := g, cnt := 0, tmr := 0, sr := 0x000000#24, sck := true, valid := false,
        nrdy := s.nrdy || !(!s.inDout && !s.sck), st := .hi, done := false }

/-- R120, R121, acceptance edge. -/
def Obligations.PowerAcceptanceEdge : Prop :=
  (∀ s : State, s.accepted = some .powerDown →
    ∃ t, exec .powerDown s = .next t ∧
      t.block = { s.block with sck := true, tmr := 0, st := .pwr, done := false }) ∧
  ∀ s : State, s.accepted = some .powerUp →
    ∃ t, exec .powerUp s = .next t ∧
      t.block = { s.block with sck := false, tmr := 0, st := .pwr, done := false }

/-- R131: the effect, the frame, no effect while busy, and the flag stays until reset. -/
def Obligations.ReservedSetsIllOnly : Prop :=
  (∀ (i : Instr) (s : State), i.reserved = true → s.accepted = some i →
    ∃ t, exec i s = .next t ∧ t.block = { s.block with ill := true, done := false }) ∧
  (∀ (i : Instr) (s t : State), i.reserved = true → s.st ≠ .idle → s.inRst = false →
    s.inCmdValid = true → s.inCmd = encode i → step s = .next t → t.ill = s.ill) ∧
  ∀ s t : State, s.ill = true → step s = .next t → t.ill = !s.inRst

/-! ### The phase edges -/

/-- R91 -/
def Obligations.HighHalfEdge : Prop :=
  ∀ s : State, s.inRst = false → s.st = .hi → ∃ t, step s = .next t ∧
    (s.tmr < s.params.tHalf - 1 → t.block = { s.block with tmr := s.tmr + 1, done := false }) ∧
    (¬ s.tmr < s.params.tHalf - 1 → s.cnt.toNat < 24 → t.block = { s.block with
      sr := s.sr.extractLsb' 0 23 ++ BitVec.ofBool s.inDout, sck := false, tmr := 0, st := .lo,
      done := false }) ∧
    (¬ s.tmr < s.params.tHalf - 1 → ¬ s.cnt.toNat < 24 → t.block = { s.block with
      sck := false, tmr := 0, st := .lo, done := false })

/-- R92 -/
def Obligations.LowHalfEdge : Prop :=
  ∀ s : State, s.inRst = false → s.st = .lo → ∃ t, step s = .next t ∧
    (s.tmr < s.params.tHalf - 1 → t.block = { s.block with tmr := s.tmr + 1, done := false }) ∧
    (¬ s.tmr < s.params.tHalf - 1 → s.cnt.toNat < 24 + s.g.toNat →
      ∃ c : PulseIdx, c.toNat = s.cnt.toNat + 1 ∧ t.block = { s.block with
        cnt := c, sck := true, tmr := 0, st := .hi, done := false }) ∧
    (¬ s.tmr < s.params.tHalf - 1 → ¬ s.cnt.toNat < 24 + s.g.toNat → t.block = { s.block with
      frame := s.sr, valid := true, done := true, cnt := 0, tmr := 0, st := .idle } ∧
      (Inv s → t.sck = false))

/-- R122: the edge, and the hold of `T_PWR` cycles from the acceptance of a power command. -/
def Obligations.PowerHold : Prop :=
  (∀ s : State, s.inRst = false → s.st = .pwr →
    ∃ t, step s = .next t ∧
      (s.tmr < s.params.tPwr - 1 → t.block = { s.block with tmr := s.tmr + 1, done := false }) ∧
      (¬ s.tmr < s.params.tPwr - 1 → t.block = { s.block with
        tmr := 0, st := .idle, done := false })) ∧
  ∀ (s : State) (i : Instr) (level : Bool), s.accepted = some i →
    (i, level) ∈ [(Instr.powerDown, true), (.powerUp, false)] → s.noReset 1 s.params.tPwr →
    (∀ m, m < s.params.tPwr → ∃ t, run (1 + m) s = .next t ∧ t.busy = true ∧ t.sck = level) ∧
    ∃ t, run (1 + s.params.tPwr) s = .next t ∧ t.st = .idle ∧ t.busy = false ∧ t.sck = level ∧
      t.frame = s.frame ∧ t.valid = s.valid ∧ t.nrdy = s.nrdy ∧ t.ill = s.ill ∧ t.g = s.g ∧
      t.sr = s.sr

/-! ### The invariant -/

/-- R32, R170 -/
def Obligations.InvariantHoldsAtReset : Prop := Inv State.reset

/-- R32: every step keeps the invariant. -/
def Obligations.StepKeepsInvariant : Prop :=
  ∀ s t : State, Inv s → step s = .next t → Inv t

/-- R174, R32: from any power-on state, the first reset edge establishes the invariant and every
later state has it. -/
def Obligations.ResetEdgeEstablishesInvariant : Prop :=
  ∀ (s t : State) (n : Nat), s.inRst = true → run (1 + n) s = .next t → Inv t

/-- R24: the range of the phase timer, and its hardware width. -/
def Obligations.TimerFitsItsWidth : Prop :=
  ∀ s : State, Inv s →
    s.tmr < max s.params.tHalf s.params.tPwr ∧ s.tmr < 2 ^ s.params.tmrWidth ∧
    1 ≤ s.params.tmrWidth ∧ ∀ w, max s.params.tHalf s.params.tPwr ≤ 2 ^ w → 1 ≤ w →
      s.params.tmrWidth ≤ w

/-! ### What one step does to each piece of state, whatever the command and the phase -/

/-- R84, R29: `done` is set by a completion edge and by nothing else, and it lasts one cycle. -/
def Obligations.DoneIsOneCyclePulse : Prop :=
  (∀ s t : State, step s = .next t → (t.done = true ↔ s.completes = true)) ∧
  ∀ s t : State, Inv s → s.done = true → step s = .next t → t.done = false

/-- R26, R111, R183: the frame register and the value output. -/
def Obligations.FrameChangesOnlyAtCompletionOrReset : Prop :=
  ∀ s t : State, step s = .next t →
    t.frame = (if s.inRst then 0 else if s.completes then s.sr else s.frame) ∧
    (t.value ≠ s.value → s.inRst = true ∨ s.completes = true)

/-- R28, R30, R31, R38, R151, R152: what sets and what clears `valid`, `nrdy` and `ill`. -/
def Obligations.FlagsSetAndCleared : Prop :=
  ∀ s t : State, step s = .next t →
    (s.inRst = true → t.valid = false ∧ t.nrdy = false ∧ t.ill = false) ∧
    (s.inRst = false →
      t.valid = ((s.valid && (s.accepted.bind gainOf).isNone) || s.completes) ∧
      t.nrdy = (s.nrdy || ((s.accepted.bind gainOf).isSome && !s.ready)) ∧
      t.ill = (s.ill || (s.accepted.map Instr.reserved == some true)))

/-- R38: "No command reads a flag. No flag changes what a command does." -/
def Obligations.NoFlagChangesBehaviour : Prop :=
  ∀ (s : State) (v d n i : Bool) (f : Frame) (t u : State), step s = .next t →
    step { s with valid := v, done := d, nrdy := n, ill := i, frame := f } = .next u →
    u.st = t.st ∧ u.cnt = t.cnt ∧ u.g = t.g ∧ u.tmr = t.tmr ∧ u.sr = t.sr ∧ u.sck = t.sck ∧
    u.done = t.done ∧ u.params = t.params ∧ u.port = t.port ∧ u.line = t.line ∧ u.cycle = t.cycle

/-- R27: the clock line. -/
def Obligations.ClockLineRule : Prop :=
  ∀ s t : State, step s = .next t →
    (s.inRst = true → t.sck = false) ∧
    (∀ i, s.accepted = some i → t.sck =
      if (gainOf i).isSome ∨ i = .powerDown then true else if i = .powerUp then false else s.sck) ∧
    (s.inRst = false → s.accepted = none → t.sck =
      if s.st = .hi ∧ ¬ s.tmr < s.params.tHalf - 1 then false
      else if s.st = .lo ∧ ¬ s.tmr < s.params.tHalf - 1 ∧ s.cnt.toNat < 24 + s.g.toNat then true
      else s.sck)

/-- R23, R25: the gain code and the shift register. -/
def Obligations.GainAndShiftRegisterWriters : Prop :=
  ∀ s t : State, step s = .next t →
    t.g = (if s.inRst then 0 else if (s.accepted.bind gainOf).isSome then argField s.inCmd else s.g) ∧
    t.sr = (if s.inRst ∨ (s.accepted.bind gainOf).isSome then 0
      else if s.st = .hi ∧ ¬ s.tmr < s.params.tHalf - 1 ∧ s.cnt.toNat < 24 then
        shiftIn s.sr s.inDout
      else s.sr)

/-- R155, point 2: ILL and NRDY never arise at the same edge. -/
def Obligations.IllAndNrdyNeverRiseTogether : Prop :=
  ∀ s t : State, step s = .next t →
    ¬ (s.ill = false ∧ t.ill = true ∧ s.nrdy = false ∧ t.nrdy = true)

/-- The model's own fields (log entries 1 to 4): no step and no command changes the parameters, and
the inputs move on by one cycle. -/
def Obligations.ParametersFixedInputsAdvance : Prop :=
  ∀ (s t : State) (i : Instr), step s = .next t ∨ exec i s = .next t →
    t.params = s.params ∧ t.cycle = s.cycle + 1 ∧
    ∀ j, t.portAt j = s.portAt (j + 1) ∧ t.doutAt j = s.doutAt (j + 1)

/-- R91, R98, R90: the level of `dout` matters at the acceptance of a READ, for `nrdy` alone, and at
the sample edges, for `sr` alone. -/
def Obligations.DataLineOnlyWhereSampled : Prop :=
  ∀ (s : State) (l : List Bool) (t u : State), step s = .next t →
    step { s with line := l } = .next u →
    { u with nrdy := t.nrdy, sr := t.sr, line := t.line } = t ∧
    ((s.accepted.bind gainOf) = none → u.nrdy = t.nrdy) ∧
    (¬ (s.inRst = false ∧ s.st = .hi ∧ ¬ s.tmr < s.params.tHalf - 1 ∧ s.cnt.toNat < 24) →
      u.sr = t.sr)

/-! ### Outputs -/

/-- R35: the status word, bit by bit, and in the reset state. -/
def Obligations.StatusWordBits : Prop :=
  ∀ s : State,
    s.outputs.status.getLsbD 0 = s.outputs.busy ∧ s.outputs.status.getLsbD 1 = s.valid ∧
    s.outputs.status.getLsbD 2 = s.done ∧ s.outputs.status.getLsbD 3 = s.nrdy ∧
    s.outputs.status.getLsbD 4 = s.ill ∧ s.outputs.status.getLsbD 5 = s.sck ∧
    s.outputs.status.getLsbD 6 = s.outputs.ready ∧ s.outputs.status.getLsbD 7 = false ∧
    (s.block = resetState → s.outputs.status = 0b0#1 ++ BitVec.ofBool (!s.inDout) ++ 0b000000#6)

/-- R34: each output port. -/
def Obligations.OutputPorts : Prop :=
  ∀ s : State,
    s.outputs.pdSck = s.sck ∧ (s.outputs.cmdReady = true ↔ s.st = .idle) ∧
    (s.outputs.busy = true ↔ s.st ≠ .idle) ∧ s.outputs.frame = s.frame ∧
    s.outputs.value = sext24to32 s.frame ∧ s.outputs.valid = s.valid ∧ s.outputs.done = s.done ∧
    (s.outputs.ready = true ↔ s.inDout = false ∧ s.st = .idle ∧ s.sck = false) ∧
    s.outputs.status = s.status

/-- R112 -/
def Obligations.SignExtensionBits : Prop :=
  (∀ raw : Frame, (sext24to32 raw).extractLsb' 0 24 = raw ∧
    (∀ i, 24 ≤ i → i ≤ 31 → (sext24to32 raw).getLsbD i = raw.getLsbD 23) ∧
    (sext24to32 raw).getLsbD 31 = raw.getLsbD 23) ∧
  (∀ a b : Frame, sext24to32 a = sext24to32 b → a = b) ∧
  ∀ v : Value, (∃ raw, sext24to32 raw = v) ↔
    ∀ i, 23 ≤ i → i ≤ 31 → v.getLsbD i = v.getLsbD 31

/-- R113, and R110's `sext_32`. -/
def Obligations.SignExtensionValue : Prop :=
  ∀ raw : Frame,
    (sext24to32 raw).toInt = (raw.toNat : Int) - 2 ^ 24 * (raw.getLsbD 23).toNat ∧
    (sext24to32 raw).toInt = raw.toInt ∧ sext24to32 raw = raw.signExtend 32 ∧
    -8388608 ≤ (sext24to32 raw).toInt ∧ (sext24to32 raw).toInt ≤ 8388607 ∧
    (raw.getLsbD 23 = false → (sext24to32 raw).toInt = raw.toNat) ∧
    (raw.getLsbD 23 = true → (sext24to32 raw).toInt = (raw.toNat : Int) - 16777216)

/-! ### A whole READ -/

/-- R96: the waveform of a READ and its sample points. -/
def Obligations.ReadWaveform : Prop :=
  ∀ (s : State) (g : GainCode), s.startsRead g →
    s.noReset 1 (2 * s.params.tHalf * (25 + g.toNat)) →
    (∃ t, run 1 s = .next t ∧ t.nrdy = (s.nrdy || s.doutAt 0 || s.sck) ∧ t.sr = 0) ∧
    (∀ p c, p ≤ 24 + g.toNat → c < s.params.tHalf →
      (∃ t, run (1 + (2 * p * s.params.tHalf + c)) s = .next t ∧ t.sck = true ∧
        t.cnt.toNat = p) ∧
      ∃ t, run (1 + (2 * p * s.params.tHalf + s.params.tHalf + c)) s = .next t ∧ t.sck = false ∧
        t.cnt.toNat = p) ∧
    ∀ p, p < 24 → ∃ t u, run (2 * p * s.params.tHalf + s.params.tHalf) s = .next t ∧
      run (1 + (2 * p * s.params.tHalf + s.params.tHalf)) s = .next u ∧
      u.sr = t.sr.extractLsb' 0 23 ++
        BitVec.ofBool (s.doutAt (2 * p * s.params.tHalf + s.params.tHalf))

/-- R97: the duration of a READ, `L(g)` edges, and R101: the old frame stays until its end. -/
def Obligations.ReadDuration : Prop :=
  ∀ (s : State) (g : GainCode), s.startsRead g →
    s.noReset 1 (2 * s.params.tHalf * (25 + g.toNat)) →
    (∀ m, m < 2 * s.params.tHalf * (25 + g.toNat) → ∃ t, run (1 + m) s = .next t ∧
      t.busy = true ∧ t.cmdReady = false ∧ t.accepted = none ∧ t.done = false ∧
      t.valid = false ∧ t.frame = s.frame ∧ t.value = s.value) ∧
    (∃ t u, run (2 * s.params.tHalf * (25 + g.toNat)) s = .next t ∧
      run (1 + 2 * s.params.tHalf * (25 + g.toNat)) s = .next u ∧
      t.completes = true ∧ u.frame = t.sr ∧ u.busy = false ∧ u.cmdReady = true ∧ u.done = true ∧
      u.valid = true ∧ u.sck = false ∧
      (u.inRst = false → u.inCmdValid = true → u.accepted = some (decode u.inCmd))) ∧
    (s.params.tHalf = 1 → (g = 0 → 2 * s.params.tHalf * (25 + g.toNat) = 50) ∧
      (g = 1 → 2 * s.params.tHalf * (25 + g.toNat) = 52) ∧
      (g = 2 → 2 * s.params.tHalf * (25 + g.toNat) = 54))

/-- R95, R51: the bits of the frame are the samples, most significant bit first. -/
def Obligations.FrameIsTheSamples : Prop :=
  ∀ (s : State) (g : GainCode), s.startsRead g →
    s.noReset 1 (2 * s.params.tHalf * (25 + g.toNat)) →
    ∃ t, run (1 + 2 * s.params.tHalf * (25 + g.toNat)) s = .next t ∧ t.done = true ∧
      ∀ i, i < 24 → t.frame.getLsbD (23 - i) =
        s.doutAt (2 * i * s.params.tHalf + s.params.tHalf)

/-- R32, fifth point: the shift register holds the samples taken so far. -/
def Obligations.ShiftRegisterHoldsSamples : Prop :=
  ∀ (s : State) (g : GainCode), s.startsRead g →
    s.noReset 1 (2 * s.params.tHalf * (25 + g.toNat)) →
    ∀ m, m < 2 * s.params.tHalf * (25 + g.toNat) → ∃ t, run (1 + m) s = .next t ∧ t.reading ∧
      (∀ j, t.samples ≤ j → t.sr.getLsbD j = false) ∧
      ∀ i, i < t.samples → t.sr.getLsbD (t.samples - 1 - i) =
        s.doutAt (2 * i * s.params.tHalf + s.params.tHalf)

/-- R93: the number of pulses, and their shape. -/
def Obligations.ReadPulseCount : Prop :=
  ∀ (s : State) (g : GainCode), s.startsRead g →
    s.noReset 1 (2 * s.params.tHalf * (25 + g.toNat)) →
    falls (1 + 2 * s.params.tHalf * (25 + g.toNat)) s = 24 + (g.toNat + 1) ∧
    ∀ m, m < 2 * s.params.tHalf * (25 + g.toNat) → ∃ t, run (1 + m) s = .next t ∧
      (t.sck = true ↔ m % (2 * s.params.tHalf) < s.params.tHalf)

/-- R184: busy cycles, the return to `IDLE`, the `done` pulse and the next acceptance, for every
command. -/
def Obligations.CommandCycleCounts : Prop :=
  ∀ (s : State) (i : Instr), s.accepted = some i → s.noReset 1 (busyCycles s.params i) →
    (∀ m, m < busyCycles s.params i → ∃ t, run (1 + m) s = .next t ∧ t.busy = true ∧
      t.done = false ∧ t.accepted = none) ∧
    ∃ t, run (1 + busyCycles s.params i) s = .next t ∧ t.st = .idle ∧ t.busy = false ∧
      (t.done = true ↔ i = .read0 ∨ i = .read1 ∨ i = .read2) ∧
      (t.inRst = false → t.inCmdValid = true → t.accepted = some (decode t.inCmd))

/-- R89: the block never waits on an input. A pulse of a READ with gain `g` has an index of at most
`24 + g` (R22). -/
def Obligations.BusyBlockReachesIdle : Prop :=
  ∀ (s : State) (n : Nat), s.st ≠ .idle → (s.reading → s.cnt.toNat ≤ 24 + s.g.toNat) →
    n = (if s.st = .pwr then s.params.tPwr
      else 2 * s.params.tHalf * (25 + s.g.toNat - s.cnt.toNat)) →
    s.noReset 0 n → ∃ m t, m ≤ n ∧ run m s = .next t ∧ t.st = .idle

/-- R102, R83, R56: while the block is busy, what the host presents on `cmd_valid` and `cmd` has no
influence at all, now or later. -/
def Obligations.BusyBlockIgnoresCommands : Prop :=
  ∀ (n : Nat) (s : State) (q : List PortIn) (t : State), s.noReset 0 n →
    { s with port := q }.noReset 0 n →
    (∀ m, m < n → ∀ u, run m s = .next u → u.busy = true) →
    run n s = .next t → run n { s with port := q } = .next { t with port := q.drop n }

/-! ### Host duties, pseudo-instructions and gain latency -/

/-- R176, R177, R30, R31: a host that keeps its duties in every cycle has each command accepted, by
either form of R176, and never sees an error flag rise. The second clause rests on the model's form
of a host, `HostAct` and `hostTurn` (DESIGN CHOICE, log entry 11). -/
def Obligations.DutifulHostSeesNoErrorFlag : Prop :=
  (∀ s : State, s.presentsOnlyWhenAcceptable → s.inCmdValid = true →
    s.accepted = some (decode s.inCmd)) ∧
  (∀ (b : State) (w : Cmd) (r : List HostAct),
    (b.cmdReady = true → (hostTurn b (.hold w :: r)).rest = r ∧
      (b.driving (hostTurn b (.hold w :: r)).port).accepted = some (decode w)) ∧
    (b.cmdReady = false → (hostTurn b (.hold w :: r)).rest = .hold w :: r ∧
      step (b.driving (hostTurn b (.hold w :: r)).port) = step (b.driving PortIn.quiet))) ∧
  (∀ (n : Nat) (s t : State), Along State.readsOnlyWhenReady n s → s.nrdy = false →
    run n s = .next t → t.nrdy = false) ∧
  ∀ (n : Nat) (s t : State), Along State.presentsNoReserved n s → s.ill = false →
    run n s = .next t → t.ill = false

/-- R177, R68, R175: a host program that presents each READ right after `wait ready` never sets
`nrdy`; the boot sequence and the readings after it are such programs. The host's form is the
model's (DESIGN CHOICE, log entry 11). -/
def Obligations.GuardedHostNeverSetsNrdy : Prop :=
  (∀ (n : Nat) (y z : System), readsGuarded y.acts = true → y.block.nrdy = false →
    y.run n = some z → z.block.nrdy = false ∧ readsGuarded z.acts = true) ∧
  ∀ (g : GainCode) (n : Nat), readsGuarded (boot g ++ readings g n) = true

/-- R68: `READFRAME g` from a cycle with `ready = 1` takes, after `L(g) + 2` edges, the
sign-extension of the sampled frame. The host's form, and that it takes `value`, are the model's
(DESIGN CHOICE, log entry 11). -/
def Obligations.ReadFrameTakesTheSamples : Prop :=
  ∀ (b : State) (g : GainCode), g.toNat ≤ 2 → b.ready = true →
    ∃ z f, System.run (2 + 2 * b.params.tHalf * (25 + g.toNat)) ⟨b, readFrame g, []⟩ = some z ∧
      z.taken = [sext24to32 f] ∧ z.acts = [] ∧ z.block.nrdy = b.nrdy ∧
      ∀ i, i < 24 → f.getLsbD (23 - i) = b.doutAt (2 * i * b.params.tHalf + b.params.tHalf)

/-- R68, R122: `RESETPULSE` on an idle block takes POWER_DOWN and POWER_UP, each in the first cycle
with `cmd_ready = 1`, and leaves the clock line low. The host's form is the model's (DESIGN CHOICE, log
entry 11). -/
def Obligations.ResetPulseTakesBothCommands : Prop :=
  ∀ b : State, b.st = .idle →
    (∃ z, System.run 1 ⟨b, resetPulse, []⟩ = some z ∧ z.block.st = .pwr ∧ z.block.sck = true) ∧
    (∃ z, System.run (1 + b.params.tPwr) ⟨b, resetPulse, []⟩ = some z ∧ z.block.st = .idle ∧
      z.block.sck = true ∧ (hostTurn z.block z.acts).port = ⟨false, true, encode .powerUp⟩) ∧
    ∃ z, System.run (2 + 2 * b.params.tPwr) ⟨b, resetPulse, []⟩ = some z ∧ z.block.st = .idle ∧
      z.block.sck = false ∧ z.acts = [] ∧ z.block.frame = b.frame

/-- R94, R178, by the model's monitor (log entry 14): a well-formed READ's frame comes from the
selection in force before it, and its own gain code is the selection after it. -/
def Obligations.GainSelectionLagsOneRead : Prop :=
  ∀ (s : State) (g : GainCode) (m : Monitor), s.startsRead g → s.ready = true →
    m.owesPulse = false → s.noReset 1 (2 * s.params.tHalf * (25 + g.toNat)) →
    (Monitor.watchFor (1 + 2 * s.params.tHalf * (25 + g.toNat)) m s).frameSelection = m.selection ∧
    (Monitor.watchFor (1 + 2 * s.params.tHalf * (25 + g.toNat)) m s).selection = some g

/-- R179, by the model's monitor (log entry 14): a reset that interrupts a READ leaves a reset pulse
owed, and only a POWER_UP after a POWER_DOWN pays it. -/
def Obligations.AbortedReadOwesResetPulse : Prop :=
  (∀ (m : Monitor) (s : State), s.reading → s.inRst = true →
    (m.watch s).readAllowed = false ∧ (m.watch s).halfPulse = false) ∧
  (∀ (m : Monitor) (s : State), m.readAllowed = false → (m.watch s).readAllowed = true →
    m.halfPulse = true ∧ s.accepted = some .powerUp) ∧
  ∀ (m : Monitor) (s : State), m.halfPulse = false → (m.watch s).halfPulse = true →
    s.accepted = some .powerDown
end

