-- ==== Sys2Proof/Laws/State.lean ====
section
/-! SUPPORT. What each update of the state does to each field, one lemma per field, so that no proof
unfolds a record update. -/

namespace Sys2Proof.Machine

/-! `State.tick` -/

@[simp] theorem State.tick_st (s : State) : s.tick.st = s.st := rfl
@[simp] theorem State.tick_cnt (s : State) : s.tick.cnt = s.cnt := rfl
@[simp] theorem State.tick_g (s : State) : s.tick.g = s.g := rfl
@[simp] theorem State.tick_tmr (s : State) : s.tick.tmr = s.tmr := rfl
@[simp] theorem State.tick_sr (s : State) : s.tick.sr = s.sr := rfl
@[simp] theorem State.tick_frame (s : State) : s.tick.frame = s.frame := rfl
@[simp] theorem State.tick_sck (s : State) : s.tick.sck = s.sck := rfl
@[simp] theorem State.tick_valid (s : State) : s.tick.valid = s.valid := rfl
@[simp] theorem State.tick_done (s : State) : s.tick.done = false := rfl
@[simp] theorem State.tick_nrdy (s : State) : s.tick.nrdy = s.nrdy := rfl
@[simp] theorem State.tick_ill (s : State) : s.tick.ill = s.ill := rfl
@[simp] theorem State.tick_params (s : State) : s.tick.params = s.params := rfl
@[simp] theorem State.tick_port (s : State) : s.tick.port = s.port.tail := rfl
@[simp] theorem State.tick_line (s : State) : s.tick.line = s.line.tail := rfl
@[simp] theorem State.tick_cycle (s : State) : s.tick.cycle = s.cycle + 1 := rfl

/-! `State.resetEdge` -/

@[simp] theorem State.resetEdge_st (s : State) : s.resetEdge.st = .idle := rfl
@[simp] theorem State.resetEdge_cnt (s : State) : s.resetEdge.cnt = 0 := rfl
@[simp] theorem State.resetEdge_g (s : State) : s.resetEdge.g = 0 := rfl
@[simp] theorem State.resetEdge_tmr (s : State) : s.resetEdge.tmr = 0 := rfl
@[simp] theorem State.resetEdge_sr (s : State) : s.resetEdge.sr = 0 := rfl
@[simp] theorem State.resetEdge_frame (s : State) : s.resetEdge.frame = 0 := rfl
@[simp] theorem State.resetEdge_sck (s : State) : s.resetEdge.sck = false := rfl
@[simp] theorem State.resetEdge_valid (s : State) : s.resetEdge.valid = false := rfl
@[simp] theorem State.resetEdge_done (s : State) : s.resetEdge.done = false := rfl
@[simp] theorem State.resetEdge_nrdy (s : State) : s.resetEdge.nrdy = false := rfl
@[simp] theorem State.resetEdge_ill (s : State) : s.resetEdge.ill = false := rfl
@[simp] theorem State.resetEdge_params (s : State) : s.resetEdge.params = s.params := rfl
@[simp] theorem State.resetEdge_port (s : State) : s.resetEdge.port = s.port.tail := rfl
@[simp] theorem State.resetEdge_line (s : State) : s.resetEdge.line = s.line.tail := rfl
@[simp] theorem State.resetEdge_cycle (s : State) : s.resetEdge.cycle = s.cycle + 1 := rfl

/-! `State.startRead` -/

@[simp] theorem State.startRead_st (g : GainCode) (s : State) : (s.startRead g).st = .hi := rfl
@[simp] theorem State.startRead_cnt (g : GainCode) (s : State) : (s.startRead g).cnt = 0 := rfl
@[simp] theorem State.startRead_g (g : GainCode) (s : State) : (s.startRead g).g = g := rfl
@[simp] theorem State.startRead_tmr (g : GainCode) (s : State) : (s.startRead g).tmr = 0 := rfl
@[simp] theorem State.startRead_sr (g : GainCode) (s : State) : (s.startRead g).sr = 0 := rfl
@[simp] theorem State.startRead_frame (g : GainCode) (s : State) : (s.startRead g).frame = s.frame := rfl
@[simp] theorem State.startRead_sck (g : GainCode) (s : State) : (s.startRead g).sck = true := rfl
@[simp] theorem State.startRead_valid (g : GainCode) (s : State) : (s.startRead g).valid = false := rfl
@[simp] theorem State.startRead_done (g : GainCode) (s : State) : (s.startRead g).done = false := rfl
@[simp] theorem State.startRead_nrdy (g : GainCode) (s : State) : (s.startRead g).nrdy = s.nrdyAfterRead := rfl
@[simp] theorem State.startRead_ill (g : GainCode) (s : State) : (s.startRead g).ill = s.ill := rfl
@[simp] theorem State.startRead_params (g : GainCode) (s : State) : (s.startRead g).params = s.params := rfl
@[simp] theorem State.startRead_port (g : GainCode) (s : State) : (s.startRead g).port = s.port.tail := rfl
@[simp] theorem State.startRead_line (g : GainCode) (s : State) : (s.startRead g).line = s.line.tail := rfl
@[simp] theorem State.startRead_cycle (g : GainCode) (s : State) : (s.startRead g).cycle = s.cycle + 1 := rfl

/-! `State.startPower` -/

@[simp] theorem State.startPower_st (b : Bool) (s : State) : (s.startPower b).st = .pwr := rfl
@[simp] theorem State.startPower_cnt (b : Bool) (s : State) : (s.startPower b).cnt = s.cnt := rfl
@[simp] theorem State.startPower_g (b : Bool) (s : State) : (s.startPower b).g = s.g := rfl
@[simp] theorem State.startPower_tmr (b : Bool) (s : State) : (s.startPower b).tmr = 0 := rfl
@[simp] theorem State.startPower_sr (b : Bool) (s : State) : (s.startPower b).sr = s.sr := rfl
@[simp] theorem State.startPower_frame (b : Bool) (s : State) : (s.startPower b).frame = s.frame := rfl
@[simp] theorem State.startPower_sck (b : Bool) (s : State) : (s.startPower b).sck = b := rfl
@[simp] theorem State.startPower_valid (b : Bool) (s : State) : (s.startPower b).valid = s.valid := rfl
@[simp] theorem State.startPower_done (b : Bool) (s : State) : (s.startPower b).done = false := rfl
@[simp] theorem State.startPower_nrdy (b : Bool) (s : State) : (s.startPower b).nrdy = s.nrdy := rfl
@[simp] theorem State.startPower_ill (b : Bool) (s : State) : (s.startPower b).ill = s.ill := rfl
@[simp] theorem State.startPower_params (b : Bool) (s : State) : (s.startPower b).params = s.params := rfl
@[simp] theorem State.startPower_port (b : Bool) (s : State) : (s.startPower b).port = s.port.tail := rfl
@[simp] theorem State.startPower_line (b : Bool) (s : State) : (s.startPower b).line = s.line.tail := rfl
@[simp] theorem State.startPower_cycle (b : Bool) (s : State) : (s.startPower b).cycle = s.cycle + 1 := rfl

/-! `State.setIll` -/

@[simp] theorem State.setIll_st (s : State) : s.setIll.st = s.st := rfl
@[simp] theorem State.setIll_cnt (s : State) : s.setIll.cnt = s.cnt := rfl
@[simp] theorem State.setIll_g (s : State) : s.setIll.g = s.g := rfl
@[simp] theorem State.setIll_tmr (s : State) : s.setIll.tmr = s.tmr := rfl
@[simp] theorem State.setIll_sr (s : State) : s.setIll.sr = s.sr := rfl
@[simp] theorem State.setIll_frame (s : State) : s.setIll.frame = s.frame := rfl
@[simp] theorem State.setIll_sck (s : State) : s.setIll.sck = s.sck := rfl
@[simp] theorem State.setIll_valid (s : State) : s.setIll.valid = s.valid := rfl
@[simp] theorem State.setIll_done (s : State) : s.setIll.done = false := rfl
@[simp] theorem State.setIll_nrdy (s : State) : s.setIll.nrdy = s.nrdy := rfl
@[simp] theorem State.setIll_ill (s : State) : s.setIll.ill = true := rfl
@[simp] theorem State.setIll_params (s : State) : s.setIll.params = s.params := rfl
@[simp] theorem State.setIll_port (s : State) : s.setIll.port = s.port.tail := rfl
@[simp] theorem State.setIll_line (s : State) : s.setIll.line = s.line.tail := rfl
@[simp] theorem State.setIll_cycle (s : State) : s.setIll.cycle = s.cycle + 1 := rfl

/-! `State.countTmr` -/

@[simp] theorem State.countTmr_st (s : State) : s.countTmr.st = s.st := rfl
@[simp] theorem State.countTmr_cnt (s : State) : s.countTmr.cnt = s.cnt := rfl
@[simp] theorem State.countTmr_g (s : State) : s.countTmr.g = s.g := rfl
@[simp] theorem State.countTmr_tmr (s : State) : s.countTmr.tmr = s.tmr + 1 := rfl
@[simp] theorem State.countTmr_sr (s : State) : s.countTmr.sr = s.sr := rfl
@[simp] theorem State.countTmr_frame (s : State) : s.countTmr.frame = s.frame := rfl
@[simp] theorem State.countTmr_sck (s : State) : s.countTmr.sck = s.sck := rfl
@[simp] theorem State.countTmr_valid (s : State) : s.countTmr.valid = s.valid := rfl
@[simp] theorem State.countTmr_done (s : State) : s.countTmr.done = false := rfl
@[simp] theorem State.countTmr_nrdy (s : State) : s.countTmr.nrdy = s.nrdy := rfl
@[simp] theorem State.countTmr_ill (s : State) : s.countTmr.ill = s.ill := rfl
@[simp] theorem State.countTmr_params (s : State) : s.countTmr.params = s.params := rfl
@[simp] theorem State.countTmr_port (s : State) : s.countTmr.port = s.port.tail := rfl
@[simp] theorem State.countTmr_line (s : State) : s.countTmr.line = s.line.tail := rfl
@[simp] theorem State.countTmr_cycle (s : State) : s.countTmr.cycle = s.cycle + 1 := rfl

/-! `State.endHigh` -/

@[simp] theorem State.endHigh_st (s : State) : s.endHigh.st = .lo := rfl
@[simp] theorem State.endHigh_cnt (s : State) : s.endHigh.cnt = s.cnt := rfl
@[simp] theorem State.endHigh_g (s : State) : s.endHigh.g = s.g := rfl
@[simp] theorem State.endHigh_tmr (s : State) : s.endHigh.tmr = 0 := rfl
@[simp] theorem State.endHigh_sr (s : State) : s.endHigh.sr = (if s.cnt.toNat < 24 then shiftIn s.sr s.inDout else s.sr) := rfl
@[simp] theorem State.endHigh_frame (s : State) : s.endHigh.frame = s.frame := rfl
@[simp] theorem State.endHigh_sck (s : State) : s.endHigh.sck = false := rfl
@[simp] theorem State.endHigh_valid (s : State) : s.endHigh.valid = s.valid := rfl
@[simp] theorem State.endHigh_done (s : State) : s.endHigh.done = false := rfl
@[simp] theorem State.endHigh_nrdy (s : State) : s.endHigh.nrdy = s.nrdy := rfl
@[simp] theorem State.endHigh_ill (s : State) : s.endHigh.ill = s.ill := rfl
@[simp] theorem State.endHigh_params (s : State) : s.endHigh.params = s.params := rfl
@[simp] theorem State.endHigh_port (s : State) : s.endHigh.port = s.port.tail := rfl
@[simp] theorem State.endHigh_line (s : State) : s.endHigh.line = s.line.tail := rfl
@[simp] theorem State.endHigh_cycle (s : State) : s.endHigh.cycle = s.cycle + 1 := rfl

/-! `State.nextPulse` -/

@[simp] theorem State.nextPulse_st (s : State) : s.nextPulse.st = .hi := rfl
@[simp] theorem State.nextPulse_cnt (s : State) : s.nextPulse.cnt = s.cnt + 1 := rfl
@[simp] theorem State.nextPulse_g (s : State) : s.nextPulse.g = s.g := rfl
@[simp] theorem State.nextPulse_tmr (s : State) : s.nextPulse.tmr = 0 := rfl
@[simp] theorem State.nextPulse_sr (s : State) : s.nextPulse.sr = s.sr := rfl
@[simp] theorem State.nextPulse_frame (s : State) : s.nextPulse.frame = s.frame := rfl
@[simp] theorem State.nextPulse_sck (s : State) : s.nextPulse.sck = true := rfl
@[simp] theorem State.nextPulse_valid (s : State) : s.nextPulse.valid = s.valid := rfl
@[simp] theorem State.nextPulse_done (s : State) : s.nextPulse.done = false := rfl
@[simp] theorem State.nextPulse_nrdy (s : State) : s.nextPulse.nrdy = s.nrdy := rfl
@[simp] theorem State.nextPulse_ill (s : State) : s.nextPulse.ill = s.ill := rfl
@[simp] theorem State.nextPulse_params (s : State) : s.nextPulse.params = s.params := rfl
@[simp] theorem State.nextPulse_port (s : State) : s.nextPulse.port = s.port.tail := rfl
@[simp] theorem State.nextPulse_line (s : State) : s.nextPulse.line = s.line.tail := rfl
@[simp] theorem State.nextPulse_cycle (s : State) : s.nextPulse.cycle = s.cycle + 1 := rfl

/-! `State.complete` -/

@[simp] theorem State.complete_st (s : State) : s.complete.st = .idle := rfl
@[simp] theorem State.complete_cnt (s : State) : s.complete.cnt = 0 := rfl
@[simp] theorem State.complete_g (s : State) : s.complete.g = s.g := rfl
@[simp] theorem State.complete_tmr (s : State) : s.complete.tmr = 0 := rfl
@[simp] theorem State.complete_sr (s : State) : s.complete.sr = s.sr := rfl
@[simp] theorem State.complete_frame (s : State) : s.complete.frame = s.sr := rfl
@[simp] theorem State.complete_sck (s : State) : s.complete.sck = s.sck := rfl
@[simp] theorem State.complete_valid (s : State) : s.complete.valid = true := rfl
@[simp] theorem State.complete_done (s : State) : s.complete.done = true := rfl
@[simp] theorem State.complete_nrdy (s : State) : s.complete.nrdy = s.nrdy := rfl
@[simp] theorem State.complete_ill (s : State) : s.complete.ill = s.ill := rfl
@[simp] theorem State.complete_params (s : State) : s.complete.params = s.params := rfl
@[simp] theorem State.complete_port (s : State) : s.complete.port = s.port.tail := rfl
@[simp] theorem State.complete_line (s : State) : s.complete.line = s.line.tail := rfl
@[simp] theorem State.complete_cycle (s : State) : s.complete.cycle = s.cycle + 1 := rfl

/-! `State.endPower` -/

@[simp] theorem State.endPower_st (s : State) : s.endPower.st = .idle := rfl
@[simp] theorem State.endPower_cnt (s : State) : s.endPower.cnt = s.cnt := rfl
@[simp] theorem State.endPower_g (s : State) : s.endPower.g = s.g := rfl
@[simp] theorem State.endPower_tmr (s : State) : s.endPower.tmr = 0 := rfl
@[simp] theorem State.endPower_sr (s : State) : s.endPower.sr = s.sr := rfl
@[simp] theorem State.endPower_frame (s : State) : s.endPower.frame = s.frame := rfl
@[simp] theorem State.endPower_sck (s : State) : s.endPower.sck = s.sck := rfl
@[simp] theorem State.endPower_valid (s : State) : s.endPower.valid = s.valid := rfl
@[simp] theorem State.endPower_done (s : State) : s.endPower.done = false := rfl
@[simp] theorem State.endPower_nrdy (s : State) : s.endPower.nrdy = s.nrdy := rfl
@[simp] theorem State.endPower_ill (s : State) : s.endPower.ill = s.ill := rfl
@[simp] theorem State.endPower_params (s : State) : s.endPower.params = s.params := rfl
@[simp] theorem State.endPower_port (s : State) : s.endPower.port = s.port.tail := rfl
@[simp] theorem State.endPower_line (s : State) : s.endPower.line = s.line.tail := rfl
@[simp] theorem State.endPower_cycle (s : State) : s.endPower.cycle = s.cycle + 1 := rfl

/-! `State.driving` -/

@[simp] theorem State.driving_st (p : PortIn) (s : State) : (s.driving p).st = s.st := rfl
@[simp] theorem State.driving_cnt (p : PortIn) (s : State) : (s.driving p).cnt = s.cnt := rfl
@[simp] theorem State.driving_g (p : PortIn) (s : State) : (s.driving p).g = s.g := rfl
@[simp] theorem State.driving_tmr (p : PortIn) (s : State) : (s.driving p).tmr = s.tmr := rfl
@[simp] theorem State.driving_sr (p : PortIn) (s : State) : (s.driving p).sr = s.sr := rfl
@[simp] theorem State.driving_frame (p : PortIn) (s : State) : (s.driving p).frame = s.frame := rfl
@[simp] theorem State.driving_sck (p : PortIn) (s : State) : (s.driving p).sck = s.sck := rfl
@[simp] theorem State.driving_valid (p : PortIn) (s : State) : (s.driving p).valid = s.valid := rfl
@[simp] theorem State.driving_done (p : PortIn) (s : State) : (s.driving p).done = s.done := rfl
@[simp] theorem State.driving_nrdy (p : PortIn) (s : State) : (s.driving p).nrdy = s.nrdy := rfl
@[simp] theorem State.driving_ill (p : PortIn) (s : State) : (s.driving p).ill = s.ill := rfl
@[simp] theorem State.driving_params (p : PortIn) (s : State) : (s.driving p).params = s.params := rfl
@[simp] theorem State.driving_port (p : PortIn) (s : State) : (s.driving p).port = p :: s.port.tail := rfl
@[simp] theorem State.driving_line (p : PortIn) (s : State) : (s.driving p).line = s.line := rfl
@[simp] theorem State.driving_cycle (p : PortIn) (s : State) : (s.driving p).cycle = s.cycle := rfl

end Sys2Proof.Machine
end

