-- ==== Sys2Proof/Laws/Inputs.lean ====
section
/-! SUPPORT. How the inputs of the coming cycles move on at an edge. -/

namespace Sys2Proof.Machine

/-- The ports of a state whose list is the tail. -/
theorem State.portAt_of_tail {s t : State} (h : t.port = s.port.tail) (j : Nat) :
    t.portAt j = s.portAt (j + 1) := by
  unfold State.portAt
  rw [h]
  cases s.port <;> simp

/-- The levels of a state one cycle later whose list is the tail. -/
theorem State.doutAt_of_tail {s t : State} (h : t.line = s.line.tail) (hc : t.cycle = s.cycle + 1)
    (j : Nat) : t.doutAt j = s.doutAt (j + 1) := by
  unfold State.doutAt
  rw [h, hc, show s.cycle + 1 + j = s.cycle + (j + 1) by omega]
  cases s.line <;> simp

/-- The current ports of a state under a driven port. -/
@[simp] theorem State.portAt_driving_zero (s : State) (p : PortIn) : (s.driving p).portAt 0 = p := rfl

@[simp] theorem State.portAt_driving_succ (s : State) (p : PortIn) (j : Nat) :
    (s.driving p).portAt (j + 1) = s.portAt (j + 1) := by
  unfold State.portAt State.driving
  cases s.port <;> simp

@[simp] theorem State.doutAt_driving (s : State) (p : PortIn) (j : Nat) :
    (s.driving p).doutAt j = s.doutAt j := rfl

/-- `rst = 0` in a longer stretch of cycles gives it in a shorter one inside. -/
theorem State.noReset_mono {s : State} {i n i' n' : Nat} (h : s.noReset i n) (hi : i ≤ i')
    (hn : i' + n' ≤ i + n) : s.noReset i' n' := by
  intro j hj
  have := h (i' - i + j) (by omega)
  rwa [show i + (i' - i + j) = i' + j by omega] at this

end Sys2Proof.Machine
end

