-- ==== Sys2Proof/Laws/PerInstr.lean ====
section
/-! SUPPORT. Statements for all instructions, one lemma per constructor. -/

namespace Sys2Proof.Laws.Layout

/-- R60, R62, R64: an instruction's word is its two fields; it is legal exactly when the
instruction is not reserved; and it is a READ exactly when its operation field is `01` and its
argument is a gain code. -/
def Statement (i : Instr) : Prop :=
  opField (encode i) ++ argField (encode i) = encode i ∧
  legalWord (encode i) = !i.reserved ∧
  (Machine.gainOf i = if opField (encode i) = 0b01#2 ∧ argField (encode i) ≠ 0b11#2 then
    some (argField (encode i)) else none)

theorem nop : Statement .nop := by unfold Statement; decide
theorem reserved0001 : Statement .reserved0001 := by unfold Statement; decide
theorem reserved0010 : Statement .reserved0010 := by unfold Statement; decide
theorem reserved0011 : Statement .reserved0011 := by unfold Statement; decide
theorem read0 : Statement .read0 := by unfold Statement; decide
theorem read1 : Statement .read1 := by unfold Statement; decide
theorem read2 : Statement .read2 := by unfold Statement; decide
theorem reserved0111 : Statement .reserved0111 := by unfold Statement; decide
theorem powerDown : Statement .powerDown := by unfold Statement; decide
theorem reserved1001 : Statement .reserved1001 := by unfold Statement; decide
theorem reserved1010 : Statement .reserved1010 := by unfold Statement; decide
theorem reserved1011 : Statement .reserved1011 := by unfold Statement; decide
theorem powerUp : Statement .powerUp := by unfold Statement; decide
theorem reserved1101 : Statement .reserved1101 := by unfold Statement; decide
theorem reserved1110 : Statement .reserved1110 := by unfold Statement; decide
theorem reserved1111 : Statement .reserved1111 := by unfold Statement; decide

end Sys2Proof.Laws.Layout
end

