-- ==== Sys2Proof/Laws/Step.lean ====
section
/-! SUPPORT. What a step can do, said once: the case theorems every invariant is proved from, and
how `run` unfolds. -/

namespace Sys2Proof.Machine

/-- Everything an accepted command can do. -/
theorem exec_cases (i : Instr) (s : State) :
    (i = .nop ∧ exec i s = .next s.tick) ∨
    (∃ g, gainOf i = some g ∧ exec i s = .next (s.startRead g)) ∨
    (i = .powerDown ∧ exec i s = .next (s.startPower true)) ∨
    (i = .powerUp ∧ exec i s = .next (s.startPower false)) ∨
    (i.reserved = true ∧ exec i s = .next s.setIll) := by
  cases i
  case nop => exact .inl ⟨rfl, rfl⟩
  case read0 => exact .inr (.inl ⟨_, rfl, rfl⟩)
  case read1 => exact .inr (.inl ⟨_, rfl, rfl⟩)
  case read2 => exact .inr (.inl ⟨_, rfl, rfl⟩)
  case powerDown => exact .inr (.inr (.inl ⟨rfl, rfl⟩))
  case powerUp => exact .inr (.inr (.inr (.inl ⟨rfl, rfl⟩)))
  all_goals exact .inr (.inr (.inr (.inr ⟨rfl, rfl⟩)))

/-- A READ starts with its gain code. -/
theorem exec_of_gainOf {i : Instr} {g : GainCode} (h : gainOf i = some g) (s : State) :
    exec i s = .next (s.startRead g) := by
  cases i <;> simp only [gainOf, reduceCtorEq, Option.some.injEq] at h <;> subst h <;> rfl

/-- A reserved word sets `ill`. -/
theorem exec_of_reserved {i : Instr} (h : i.reserved = true) (s : State) :
    exec i s = .next s.setIll := by
  cases i <;> first | exact absurd h (by decide) | rfl

/-- When a command is accepted. -/
theorem State.accepted_eq_some {s : State} {i : Instr} : s.accepted = some i ↔
    s.inRst = false ∧ s.inCmdValid = true ∧ s.st = .idle ∧ decode s.inCmd = i := by
  unfold State.accepted
  split <;> simp_all

theorem State.accepted_of_busy {s : State} (h : s.st ≠ .idle) : s.accepted = none := by
  unfold State.accepted
  simp [h]

theorem step_of_rst {s : State} (h : s.inRst = true) : step s = .next s.resetEdge := by
  simp [step, h]

theorem step_of_accepted {s : State} {i : Instr} (h : s.accepted = some i) : step s = exec i s := by
  have := (State.accepted_eq_some.mp h).1
  simp [step, h, this]

theorem step_of_none {s : State} (h : s.inRst = false) (ha : s.accepted = none) :
    step s = .next s.phaseEdge := by
  simp [step, h, ha]

/-- Everything one edge can do. -/
theorem step_cases {s t : State} (h : step s = .next t) :
    (s.inRst = true ∧ t = s.resetEdge) ∨
    (s.inRst = false ∧ ∃ i, s.accepted = some i ∧ exec i s = .next t) ∨
    (s.inRst = false ∧ s.accepted = none ∧ t = s.phaseEdge) := by
  by_cases hr : s.inRst = true
  · rw [step_of_rst hr] at h
    exact .inl ⟨hr, (Host.Outcome.next.inj h).symm⟩
  · have hr : s.inRst = false := by simpa using hr
    cases ha : s.accepted with
    | some i => exact .inr (.inl ⟨hr, i, rfl, by rw [← step_of_accepted ha]; exact h⟩)
    | none =>
      rw [step_of_none hr ha] at h
      exact .inr (.inr ⟨hr, rfl, (Host.Outcome.next.inj h).symm⟩)

/-- Everything an edge inside the HI phase can do. -/
theorem State.hiEdge_cases (s : State) :
    (s.tmr < s.params.tHalf - 1 ∧ s.hiEdge = s.countTmr) ∨
    (¬ s.tmr < s.params.tHalf - 1 ∧ s.hiEdge = s.endHigh) := by
  unfold State.hiEdge
  split <;> simp_all

/-- Everything an edge inside the LO phase can do. -/
theorem State.loEdge_cases (s : State) :
    (s.tmr < s.params.tHalf - 1 ∧ s.loEdge = s.countTmr) ∨
    (¬ s.tmr < s.params.tHalf - 1 ∧ s.cnt.toNat < 24 + s.g.toNat ∧ s.loEdge = s.nextPulse) ∨
    (¬ s.tmr < s.params.tHalf - 1 ∧ ¬ s.cnt.toNat < 24 + s.g.toNat ∧ s.loEdge = s.complete) := by
  unfold State.loEdge
  split <;> [skip; split] <;> simp_all

/-- Everything an edge inside the PWR phase can do. -/
theorem State.pwrEdge_cases (s : State) :
    (s.tmr < s.params.tPwr - 1 ∧ s.pwrEdge = s.countTmr) ∨
    (¬ s.tmr < s.params.tPwr - 1 ∧ s.pwrEdge = s.endPower) := by
  unfold State.pwrEdge
  split <;> simp_all

/-- Everything an edge without an accepted command can do. -/
theorem State.phaseEdge_cases (s : State) :
    (s.st = .idle ∧ s.phaseEdge = s.tick) ∨ (s.st = .hi ∧ s.phaseEdge = s.hiEdge) ∨
    (s.st = .lo ∧ s.phaseEdge = s.loEdge) ∨ (s.st = .pwr ∧ s.phaseEdge = s.pwrEdge) := by
  unfold State.phaseEdge
  cases s.st <;> simp

/-- Every update of an edge moves the inputs on and keeps the parameters. -/
theorem step_inputs {s t : State} (h : step s = .next t) :
    t.params = s.params ∧ t.port = s.port.tail ∧ t.line = s.line.tail ∧ t.cycle = s.cycle + 1 := by
  obtain ⟨-, rfl⟩ | ⟨-, i, -, he⟩ | ⟨-, -, rfl⟩ := step_cases h
  · simp
  · obtain ⟨-, e⟩ | ⟨g, -, e⟩ | ⟨-, e⟩ | ⟨-, e⟩ | ⟨-, e⟩ := exec_cases i s <;>
      (rw [e] at he; cases he; simp)
  · obtain ⟨-, e⟩ | ⟨-, e⟩ | ⟨-, e⟩ | ⟨-, e⟩ := s.phaseEdge_cases <;> rw [e]
    · simp
    · obtain ⟨-, e⟩ | ⟨-, e⟩ := s.hiEdge_cases <;> rw [e] <;> simp
    · obtain ⟨-, e⟩ | ⟨-, -, e⟩ | ⟨-, -, e⟩ := s.loEdge_cases <;> rw [e] <;> simp
    · obtain ⟨-, e⟩ | ⟨-, e⟩ := s.pwrEdge_cases <;> rw [e] <;> simp

@[simp] theorem run_zero (s : State) : run 0 s = .next s := rfl

theorem run_succ_of_step {s t : State} (h : step s = .next t) (n : Nat) :
    run (n + 1) s = run n t := by
  simp [run, h]

theorem run_one (s : State) : run 1 s = step s := by
  unfold run
  cases step s <;> rfl

/-- A longer run begins with a shorter one. -/
theorem run_add {m n : Nat} {s t : State} (h : run m s = .next t) : run (m + n) s = run n t := by
  induction m generalizing s with
  | zero => cases h; simp
  | succ m ih =>
    rw [show m + 1 + n = (m + n) + 1 by omega]
    cases hs : step s with
    | next u =>
      rw [run_succ_of_step hs] at h ⊢
      exact ih h
    | fault r => exact nomatch r
    | refused r => simp [run, hs] at h

end Sys2Proof.Machine
end

