-- ==== Sys2Proof/Laws/Words.lean ====
section
/-! SUPPORT. The bits of the shift register after a shift, and of the sign-extended value. -/

namespace Sys2Proof.Machine

theorem getLsbD_shiftIn (sr : Frame) (b : Bool) (j : Nat) :
    (shiftIn sr b).getLsbD j = if j = 0 then b else decide (j < 24) && sr.getLsbD (j - 1) := by
  unfold shiftIn
  rw [BitVec.getLsbD_append]
  by_cases h : j = 0
  · subst h; simp
  · have : ¬ j < 1 := by omega
    simp only [h, this, if_false, BitVec.getLsbD_extractLsb', Nat.zero_add]
    congr 1
    simp; omega

theorem toNat_shiftIn (sr : Frame) (b : Bool) (h : sr.toNat < 2 ^ 23) :
    (shiftIn sr b).toNat = 2 * sr.toNat + b.toNat := by
  unfold shiftIn
  rw [BitVec.toNat_append, BitVec.extractLsb'_toNat, BitVec.toNat_ofBool, Nat.shiftRight_zero,
    Nat.mod_eq_of_lt h, Nat.shiftLeft_eq, Nat.mul_comm]
  cases b
  · simp
  · simp only [Bool.toNat_true]
    have h2 : 2 ^ 1 * sr.toNat = sr.toNat <<< 1 := by rw [Nat.shiftLeft_eq, Nat.mul_comm]
    rw [h2, ← Nat.shiftLeft_add_eq_or_of_lt (by decide)]
    rw [Nat.shiftLeft_eq]; omega

theorem getLsbD_sext24to32 (raw : Frame) (j : Nat) :
    (sext24to32 raw).getLsbD j =
      if j < 24 then raw.getLsbD j else decide (j < 32) && raw.getLsbD 23 := by
  unfold sext24to32
  split <;> rename_i hb <;> rw [BitVec.getLsbD_append] <;> split <;> simp_all
  rename_i h
  by_cases h2 : j < 32
  · have : j - 24 < 8 := by omega
    generalize j - 24 = k at this
    simp only [h2, decide_true]
    interval_cases k <;> rfl
  · simp only [h2, decide_false]
    exact BitVec.getLsbD_of_ge _ _ (by omega)

end Sys2Proof.Machine
end

