-- ==== Sys2Proof/Tests/Slice0.lean ====
section
/-! SUPPORT. Tests, each on at most one step, with results from 95_test_vectors.md and the rules' own
examples; and for each statement with premises a state that meets them. -/

namespace Sys2Proof.Tests

open Sys2Proof Sys2Proof.Machine

/-! ### States to test on -/

/-- The next state of an outcome. -/
def nextOf : Host.Outcome State Fault Refusal → Option State
  | .next t => some t
  | .fault _ => none
  | .refused _ => none

/-- `T_HALF = h + 1`, `T_PWR = p + 1`. -/
def par (h p : Nat) : Params := ⟨h + 1, p + 1, by omega, by omega⟩

/-- The reset state with `T_HALF = 1`, `T_PWR = 2`, the word presented, and `dout` in this cycle and
the next. -/
def presenting (w : Cmd) (d d' : Bool) : State :=
  { State.reset with params := par 0 1, port := [⟨false, true, w⟩], line := [d, d'] }

/-- A quiet state in a given phase, `T_HALF = 2`, `T_PWR = 2`, `dout = 1` now and in the next cycle. -/
def inPhase (st : Phase) (cnt : PulseIdx) (g : GainCode) (tmr : Nat) (sck : Bool) : State :=
  { State.reset with st := st, cnt := cnt, g := g, tmr := tmr, sck := sck, params := par 1 1,
                     line := [true, true] }

/-- The same state with `rst = 1` in this cycle and the next. -/
def underReset (s : State) : State := { s with port := [⟨true, false, 0⟩, ⟨true, false, 0⟩] }

/-- The `done` cycle of a READ of the frame `0x800000`, `dout = 0`, with `w` presented. -/
def doneCycle (w : Cmd) : State :=
  { presenting w false false with sr := 0x800000, frame := 0x800000, valid := true, done := true }

/-! ### Well-formedness: what each check refuses -/

theorem test_legal_words :
    legalWord 0b0000 = true ∧ legalWord 0b0110 = true ∧ legalWord 0b1000 = true ∧
    legalWord 0b1100 = true := by decide

/-- The argument is not 0 under operation 00, 10 and 11. -/
theorem test_illegal_arguments :
    legalWord 0b0001 = false ∧ legalWord 0b1001 = false ∧ legalWord 0b1111 = false := by decide

/-- Gain code 3. -/
theorem test_illegal_gain : legalWord 0b0111 = false := by decide

/-- 00_scope.md R8. -/
theorem test_parameters : paramsOk 0 1 = false ∧ paramsOk 1 0 = false ∧ paramsOk 1 1 = true := by
  decide

theorem test_script_refuses_two_commands_in_a_cycle :
    Script.wellFormed [.timedCommand 3 0b0100, .timedCommand 3 0b1000] = false := by decide

theorem test_script_refuses_overlapping_levels :
    Script.wellFormed [.timedDout 1 5 true, .timedDout 5 6 false] = false := by decide

theorem test_script_refuses_reversed_range :
    Script.wellFormed [.timedDout 5 1 true] = false := by decide

/-! ### Decoding: words written out from 30_encoding.md R62 -/

theorem test_decode_nop : decodeTableWord 4 0b0000 = some .nop := by decide
theorem test_decode_read1 : decodeTableWord 4 0b0101 = some .read1 := by decide
theorem test_decode_power :
    decodeTableWord 4 0b1000 = some .powerDown ∧ decodeTableWord 4 0b1100 = some .powerUp := by decide
theorem test_decode_reserved :
    decodeTableWord 4 0b0111 = some .reserved0111 ∧
    decodeTableWord 4 0b1011 = some .reserved1011 := by decide
theorem test_decode_rejects_five_bits : decodeNat 16 = .error (.widerThanTheCommandPort 16) := rfl

/-- 00_scope.md R6: 1 microsecond is 1 cycle at 1 MHz, and is rounded up at 1.5 MHz. -/
theorem test_half_cycles :
    Params.halfCycles 1 1000000 = 1 ∧ Params.halfCycles 1 1500000 = 2 := by decide

/-- 10_state.md R21. -/
theorem test_phase_codes :
    Phase.idle.code = 0b00 ∧ Phase.hi.code = 0b01 ∧ Phase.lo.code = 0b10 ∧ Phase.pwr.code = 0b11 ∧
    ∀ c, (Phase.ofCode c).code = c := by decide

/-! ### Commands -/

/-- V6.1. -/
theorem test_nop :
    (nextOf (step (presenting 0b0000 false false))).map (fun t => (t.st, t.status)) =
      some (.idle, 0x40#8) := by decide

/-- V3.5: in the `done` cycle. -/
theorem test_nop_ends_done :
    (nextOf (step { doneCycle 0b0000 with line := [false, false] })).map (fun t => (t.done, t.status)) =
      some (false, 0x42#8) := by decide

/-- V2.2: not ready. -/
theorem test_read0_not_ready :
    (nextOf (step (presenting 0b0100 true false))).map (fun t => (t.st, t.g, t.status)) =
      some (.hi, 0, 0x29#8) := by decide

/-- V3.4: accepted in the `done` cycle; the old frame stays. -/
theorem test_read0_in_done_cycle :
    (nextOf (step (doneCycle 0b0100))).map (fun t => (t.frame, t.sr, t.status)) =
      some (0x800000#24, 0x000000#24, 0x21#8) := by decide

/-- P2. -/
theorem test_read1 :
    (nextOf (step (presenting 0b0101 false true))).map (fun t => (t.g, t.nrdy, t.status)) =
      some (1, false, 0x21#8) := by decide

/-- P3. -/
theorem test_read2 :
    (nextOf (step (presenting 0b0110 true true))).map (fun t => (t.g, t.nrdy, t.status)) =
      some (2, true, 0x29#8) := by decide

/-- V2.4: `sck = 1` at acceptance sets `nrdy` though `dout = 0`. -/
theorem test_read_while_clock_high :
    (nextOf (step { presenting 0b0100 false false with sck := true })).map
      (fun t => (t.nrdy, t.sck)) = some (true, true) := by decide

/-- V5.1. -/
theorem test_power_down :
    (nextOf (step (presenting 0b1000 false false))).map (fun t => (t.st, t.status)) =
      some (.pwr, 0x21#8) := by decide

/-- P3: POWER_DOWN in the `done` cycle, `nrdy` set, `dout = 1`. -/
theorem test_power_down_keeps_flags :
    (nextOf (step { doneCycle 0b1000 with nrdy := true, line := [true, true] })).map State.status =
      some 0x2B#8 := by decide

/-- V5.2. -/
theorem test_power_up :
    (nextOf (step { presenting 0b1100 false false with sck := true })).map
      (fun t => (t.st, t.status)) = some (.pwr, 0x01#8) := by decide

/-- V6.2, V6.3. -/
theorem test_reserved :
    ∀ w ∈ [0b0001#4, 0b0010, 0b0011, 0b0111, 0b1001, 0b1010, 0b1011, 0b1101, 0b1110, 0b1111],
      (nextOf (step (presenting w false false))).map (fun t => (t.st, t.status)) =
        some (.idle, 0x50#8) := by decide

/-- P2, end state. -/
theorem test_reserved_keeps_frame :
    (nextOf (step (doneCycle 0b0111))).map (fun t => (t.value, t.status)) =
      some (0xFF800000#32, 0x52#8) := by decide

/-- V3.3: dropped while busy. -/
theorem test_reserved_dropped :
    (nextOf (step { presenting 0b1111 false false with st := .hi, cnt := 4, sck := true })).map
      (fun t => (t.st, t.cnt, t.ill)) = some (.lo, 4, false) := by decide

/-! ### Phases and reset -/

/-- P3: `T_HALF = 2`, cycle 4. -/
theorem test_sample :
    (nextOf (step { inPhase .hi 0 2 1 true with nrdy := true })).map (fun t => (t.st, t.sr, t.status)) =
      some (.lo, 0x000001#24, 0x09#8) := by decide

/-- 41_read.md R91: a gain pulse takes no sample. -/
theorem test_gain_pulse_takes_no_sample :
    (nextOf (step (inPhase .hi 24 0 1 true))).map (fun t => (t.st, t.sr)) =
      some (.lo, 0x000000#24) := by decide

/-- P1: the completion edge. -/
theorem test_completion :
    (nextOf (step { inPhase .lo 24 0 1 false with sr := 1, line := [false, false] })).map
      (fun t => (t.frame, t.cnt, t.status)) = some (0x000001#24, 0, 0x46#8) := by decide

/-- V1.2: with gain code 1 there is a pulse after pulse 24. -/
theorem test_second_gain_pulse :
    (nextOf (step (inPhase .lo 24 1 1 false))).map (fun t => (t.st, t.cnt, t.sck)) =
      some (.hi, 25, true) := by decide

/-- V5.1, cycle 4. -/
theorem test_hold_ends :
    (nextOf (step { inPhase .pwr 0 0 1 true with line := [false, false] })).map
      (fun t => (t.st, t.status)) = some (.idle, 0x20#8) := by decide

/-- V7.1. -/
theorem test_reset_in_read :
    (nextOf (step (underReset (inPhase .hi 9 0 0 true)))).map State.block = some resetState := by decide

/-- V3.6: a READ presented under reset is dropped. -/
theorem test_read_dropped_under_reset :
    (nextOf (step ((presenting 0b0100 false false).driving ⟨true, true, 0b0100⟩))).map
      (fun t => (t.st, t.status)) = some (.idle, 0x40#8) := by decide

/-! ### Sign extension: S1.1 to S1.4, V4.7 -/

theorem test_sext :
    (sext24to32 0x000001).toInt = 1 ∧ (sext24to32 0x800000).toInt = -8388608 ∧
    (sext24to32 0x7FFFFF).toInt = 8388607 ∧ (sext24to32 0xFFFFFF).toInt = -1 ∧
    sext24to32 0xABCDEF = 0xFFABCDEF#32 := by decide

/-! ### Scripts and hosts -/

theorem test_parse_timed :
    parseLine "@7 read 0 ; first".toList = .ok (.timedCommand 7 0b0100) ∧
    parseLine "@1..200 dout=1".toList = .ok (.timedDout 1 200 true) ∧
    parseLine "@0 rst".toList = .ok (.timedReset 0) ∧
    parseLine "@54 .cmd 0b0111".toList = .ok (.timedCommand 54 0b0111) := by decide

/-- Log entry 12, the model's choice. -/
theorem test_parse_range_before_command :
    parseLine "@5..5 NOP".toList = .ok (.timedCommand 5 0b0000) ∧
    parseLine "@5..6 NOP".toList = .error (.notALine "@5..6 NOP".toList) := by decide

theorem test_parse_rejects_gain_three :
    parseLine "READ 3".toList = .error (.notALine "READ 3".toList) := by decide

/-- R68: `wait ready` holds the READ back while `dout = 1`, and lets it go in the first ready cycle. -/
theorem test_wait_ready :
    (hostTurn (presenting 0 true true) (gainSet 1)).port = PortIn.quiet ∧
    (hostTurn (presenting 0 false true) (gainSet 1)).port = ⟨false, true, 0b0101⟩ := by decide

/-- Log entry 11, the model's choice: after `wait ready`, in a ready cycle 0, a command of cycle 1 waits. -/
theorem test_wait_ready_then_timed :
    (hostTurn (presenting 0 false true)
      (Script.acts [.waitReady, .timedCommand 1 0b0100])).port = PortIn.quiet := by decide

/-- R68: READFRAME takes the value in the `done` cycle. -/
theorem test_take_frame :
    (hostTurn (doneCycle 0) [.takeFrame]).taken = [0xFF800000#32] := by decide

/-! ### Witnesses: a state that meets the premises of each statement -/

/-- For every statement about an accepted command. -/
theorem witness_every_word_is_accepted :
    ∀ w : Cmd, (presenting w false false).accepted = some (decode w) := by decide

theorem witness_AssemblerIgnoresCase : parseLine "Read 1".toList = .ok (.command 0b0101) := by decide

/-- Each clause: a command, a reset, a quiet cycle, a range at both ends, the level kept after it
and the level before it. -/
theorem witness_ScriptPresentsItsLines :
    let sc : Script := [.timedReset 0, .timedDout 2 4 true, .timedCommand 1 0b0101]
    sc.wellFormed = true ∧ sc.portIn 1 = ⟨false, true, 0b0101⟩ ∧ (sc.portIn 0).rst = true ∧
    (sc.portIn 2).cmdValid = false ∧ sc.levelIn 2 = true ∧ sc.levelIn 4 = true ∧
    sc.levelIn 5 = true ∧ sc.levelIn 1 = false := by decide

theorem witness_LoadedScriptIsSeen :
    (Script.load [.timedCommand 1 0b0101] 2 State.reset).portAt 1 = ⟨false, true, 0b0101⟩ := by decide

theorem witness_ResetEdgeFromAnyState :
    (underReset (inPhase .hi 23 2 1 true)).inRst = true ∧
    ({ presenting 0b0100 false false with
        port := [⟨true, false, 0⟩, ⟨false, true, 0b0100⟩] } : State).portAt 1 =
      ⟨false, true, 0b0100⟩ := by decide

theorem witness_HeldResetKeepsResetState :
    ∀ j, j < 2 → ((underReset (inPhase .pwr 0 0 1 true)).portAt j).rst = true := by decide

theorem witness_ResetAbortsRead :
    (underReset (inPhase .lo 23 2 1 false)).reading ∧
    (underReset (inPhase .lo 23 2 1 false)).inRst = true ∧
    ∀ j, j < 1 → ((underReset (inPhase .lo 23 2 1 false)).portAt (1 + j)).cmdValid = false := by decide

theorem witness_UnacceptedCommandChangesNothing :
    (inPhase .hi 4 0 0 true).st ≠ .idle ∧ (inPhase .hi 4 0 0 true).inRst = false ∧
    (underReset (inPhase .idle 0 0 0 false)).inRst = true := by decide

theorem witness_IdleEdgeWithoutCommand :
    (inPhase .idle 0 2 0 true).inRst = false ∧ (inPhase .idle 0 2 0 true).st = .idle ∧
    (inPhase .idle 0 2 0 true).inCmdValid = false := by decide

/-- The second and third points; the first is met by `witness_every_word_is_accepted`. -/
theorem witness_ReservedSetsIllOnly :
    let s : State := { presenting (encode .reserved0111) false false with st := .pwr }
    s.st ≠ .idle ∧ s.inRst = false ∧ s.inCmdValid = true ∧ s.inCmd = encode .reserved0111 ∧
    ({ s with ill := true } : State).ill = true := by decide

/-- Each branch of the HI edge, `T_HALF = 2`: inside the half, the end of data pulse 23, the end of
gain pulse 24. -/
theorem witness_HighHalfEdge :
    (inPhase .hi 23 0 0 true).tmr < (inPhase .hi 23 0 0 true).params.tHalf - 1 ∧
    ¬ (inPhase .hi 23 0 1 true).tmr < (inPhase .hi 23 0 1 true).params.tHalf - 1 ∧
    (inPhase .hi 23 0 1 true).cnt.toNat < 24 ∧ ¬ (inPhase .hi 24 0 1 true).cnt.toNat < 24 ∧
    (inPhase .hi 24 0 1 true).inRst = false := by decide

/-- Each branch of the LO edge, `T_HALF = 2`, `g = 2`: inside the half, before pulse 26, after it. -/
theorem witness_LowHalfEdge :
    (inPhase .lo 26 2 0 false).tmr < (inPhase .lo 26 2 0 false).params.tHalf - 1 ∧
    ¬ (inPhase .lo 25 2 1 false).tmr < (inPhase .lo 25 2 1 false).params.tHalf - 1 ∧
    (inPhase .lo 25 2 1 false).cnt.toNat < 24 + (inPhase .lo 25 2 1 false).g.toNat ∧
    ¬ (inPhase .lo 26 2 1 false).cnt.toNat < 24 + (inPhase .lo 26 2 1 false).g.toNat ∧
    (inPhase .lo 26 2 1 false).inRst = false := by decide

/-- Each branch of the PWR edge, and a whole hold. -/
theorem witness_PowerHold :
    (inPhase .pwr 0 0 0 true).tmr < (inPhase .pwr 0 0 0 true).params.tPwr - 1 ∧
    ¬ (inPhase .pwr 0 0 1 true).tmr < (inPhase .pwr 0 0 1 true).params.tPwr - 1 ∧
    (inPhase .pwr 0 0 1 true).inRst = false ∧
    (presenting 0b1000 false false).accepted = some .powerDown ∧
    (presenting 0b1000 false false).noReset 1 (presenting 0b1000 false false).params.tPwr := by
  unfold State.noReset
  decide

/-- The invariant in each phase, at the ends of its ranges. -/
theorem witness_Inv_lo : Inv { inPhase .lo 26 2 1 false with sr := 0xFFFFFF } := by
  constructor <;> decide

theorem witness_Inv_hi : Inv { inPhase .hi 23 0 1 true with sr := 0x7FFFFF } := by
  constructor <;> decide

theorem witness_Inv_pwr : Inv (inPhase .pwr 0 2 1 false) := by constructor <;> decide

/-- For `DoneIsOneCyclePulse`: the invariant with `done = 1`; and a completion edge. -/
theorem witness_Inv_done : Inv (doneCycle 0) ∧ (doneCycle 0).done = true := by
  refine ⟨?_, rfl⟩
  constructor <;> decide

theorem witness_completes : (inPhase .lo 26 2 1 false).completes = true := by decide

theorem witness_ResetEdgeEstablishesInvariant :
    (underReset (inPhase .hi 31 3 9 false)).inRst = true ∧
    (nextOf (run (1 + 1) (underReset (inPhase .hi 31 3 9 false)))).isSome = true := by decide

/-- For the statements about every step: each kind of edge answers a next state. -/
theorem witness_step_answers :
    (nextOf (step (underReset (inPhase .hi 4 0 0 true)))).isSome = true ∧
    (nextOf (step (presenting 0b0110 true true))).isSome = true ∧
    (nextOf (step (inPhase .lo 26 2 1 false))).isSome = true := by decide

/-- The two points about where `dout` does not matter. -/
theorem witness_DataLineOnlyWhereSampled :
    ((presenting 0b1000 true true).accepted.bind gainOf) = none ∧
    ¬ ((inPhase .hi 24 0 1 true).cnt.toNat < 24) := by decide

theorem witness_StatusWordBits : (presenting 0 true true).block = resetState := by decide

/-- Positive and negative, and the bits at the ends of the range. -/
theorem witness_SignExtension :
    (0x7FFFFF#24).getLsbD 23 = false ∧ (0x800000#24).getLsbD 23 = true ∧
    (sext24to32 0x800000).getLsbD 24 = true ∧ (sext24to32 0x800000).getLsbD 31 = true ∧
    (sext24to32 0x7FFFFF).getLsbD 23 = false ∧ (sext24to32 0x7FFFFF).getLsbD 31 = false := by decide

/-- The premises of the statements over a whole READ, `g = 2`, `T_HALF = 1`, with a command presented
in the `done` cycle; and the last pulse, its last cycle and the last sample are in range. -/
theorem witness_whole_read :
    let s : State := { presenting 0b0110 false false with
      port := ⟨false, true, 0b0110⟩ :: (List.replicate 54 PortIn.quiet ++ [⟨false, true, 0b0100⟩]) }
    s.startsRead 2 ∧ s.noReset 1 (2 * s.params.tHalf * (25 + (2 : GainCode).toNat)) ∧
    s.portAt (1 + 2 * s.params.tHalf * (25 + (2 : GainCode).toNat)) = ⟨false, true, 0b0100⟩ ∧
    26 ≤ 24 + (2 : GainCode).toNat ∧ s.params.tHalf - 1 < s.params.tHalf ∧ s.params.tHalf = 1 := by
  unfold State.noReset
  decide

/-- For `CommandCycleCounts` with a command that is never busy, and one that is. -/
theorem witness_CommandCycleCounts :
    (presenting 0b0101 false false).accepted = some .read1 ∧
    (presenting 0b0101 false false).noReset 1
      (busyCycles (presenting 0b0101 false false).params .read1) ∧
    (presenting 0b0011 false false).noReset 1
      (busyCycles (presenting 0b0011 false false).params .reserved0011) := by
  unfold State.noReset
  decide

/-- In a READ at its last pulse, and in a power hold. -/
theorem witness_BusyBlockReachesIdle :
    (inPhase .hi 26 2 0 true).st ≠ .idle ∧
    (inPhase .hi 26 2 0 true).cnt.toNat ≤ 24 + (inPhase .hi 26 2 0 true).g.toNat ∧
    (inPhase .hi 26 2 0 true).noReset 0 4 ∧
    (inPhase .pwr 0 0 0 true).st = .pwr ∧ (inPhase .pwr 0 0 0 true).noReset 0 2 := by
  unfold State.noReset
  decide

theorem witness_BusyBlockIgnoresCommands :
    (inPhase .hi 4 0 0 true).noReset 0 1 ∧
    ({ inPhase .hi 4 0 0 true with port := [⟨false, true, 0b1111⟩] } : State).noReset 0 1 ∧
    (∀ m, m < 1 → ∀ u, run m (inPhase .hi 4 0 0 true) = .next u → u.busy = true) := by
  refine ⟨by unfold State.noReset; decide, by unfold State.noReset; decide, ?_⟩
  intro m hm u hu
  obtain rfl : m = 0 := by omega
  cases hu
  decide

/-- A host that keeps its duties while it presents a READ. -/
theorem witness_DutifulHostSeesNoErrorFlag :
    (presenting 0b0100 false false).presentsOnlyWhenAcceptable ∧
    (presenting 0b0100 false false).inCmdValid = true ∧
    Along State.readsOnlyWhenReady 1 (presenting 0b0100 false false) ∧
    Along State.presentsNoReserved 1 (presenting 0b0100 false false) ∧
    (presenting 0b0100 false false).nrdy = false ∧ (presenting 0b0100 false false).ill = false ∧
    (presenting 0b0100 false false).cmdReady = true ∧
    (inPhase .hi 4 0 0 true).cmdReady = false := by
  refine ⟨?_, rfl, ⟨?_, fun _ _ => trivial⟩, ⟨?_, fun _ _ => trivial⟩, rfl, rfl, rfl, rfl⟩
  · unfold State.presentsOnlyWhenAcceptable; decide
  · unfold State.readsOnlyWhenReady; decide
  · unfold State.presentsNoReserved; decide

theorem witness_GuardedHostNeverSetsNrdy :
    readsGuarded (boot 2 ++ readings 2 1) = true ∧ (presenting 0 false false).nrdy = false ∧
    (System.run 1 ⟨presenting 0 false false, boot 2, []⟩).isSome = true := by decide

theorem witness_ReadFrameTakesTheSamples :
    (2 : GainCode).toNat ≤ 2 ∧ (presenting 0 false false).ready = true := by decide

theorem witness_ResetPulseTakesBothCommands : (inPhase .idle 0 2 0 true).st = .idle := by decide

theorem witness_GainSelectionLagsOneRead :
    (presenting 0b0110 false false).startsRead 2 ∧ (presenting 0b0110 false false).ready = true ∧
    Monitor.start.owesPulse = false ∧ (presenting 0b0110 false false).noReset 1 54 := by
  unfold State.noReset
  decide

/-- Each of the three points. -/
theorem witness_AbortedReadOwesResetPulse :
    (underReset (inPhase .hi 9 0 0 true)).reading ∧
    (underReset (inPhase .hi 9 0 0 true)).inRst = true ∧
    ({ Monitor.start with owesPulse := true, halfPulse := true } : Monitor).readAllowed = false ∧
    (({ Monitor.start with owesPulse := true, halfPulse := true } : Monitor).watch
      (presenting 0b1100 false false)).readAllowed = true ∧
    Monitor.start.halfPulse = false ∧
    (Monitor.start.watch (presenting 0b1000 false false)).halfPulse = true := by decide

end Sys2Proof.Tests
end

section
/-! PROOFS. Elaboration of the parameters (00_scope.md R6 to R8). -/

namespace Sys2Proof

/-- Elaboration answers the one configuration that holds the two numbers: there is none when a number
is 0, because a configuration carries the proof that neither is (R8). -/
theorem Params.elaborate_eq_ok_iff {h p : Nat} {q : Params} :
    Params.elaborate h p = .ok q ↔ q.tHalf = h ∧ q.tPwr = p := by
  constructor
  · intro accepted
    unfold Params.elaborate at accepted
    split_ifs at accepted
    cases accepted
    exact ⟨rfl, rfl⟩
  · rintro ⟨rfl, rfl⟩
    simp [Params.elaborate, q.tHalf_pos, q.tPwr_pos]

/-- Settles O3: `Params.elaborate_eq_ok_iff`, with the bounds that a configuration carries. -/
theorem elaborationRefusesZero : Obligations.ElaborationRefusesZero := by
  intro h p
  refine ⟨fun q => Params.elaborate_eq_ok_iff.mp, ?_, ?_⟩
  · rintro ⟨q, accepted⟩
    obtain ⟨rfl, rfl⟩ := Params.elaborate_eq_ok_iff.mp accepted
    exact ⟨q.tHalf_pos, q.tPwr_pos⟩
  · rintro ⟨one_le_h, one_le_p⟩
    exact ⟨⟨h, p, one_le_h, one_le_p⟩, Params.elaborate_eq_ok_iff.mpr ⟨rfl, rfl⟩⟩

end Sys2Proof
end

section
/-! PROOFS. The edges of the block: everything one step can do, one case per edge with the guards under
which the block takes it, and how the parameters and inputs move on (40_command_cycle.md R80 to R86). -/

namespace Sys2Proof.Machine

/-- The edges, each with its guards: `Edge s t` says that `t` is the state after the edge that ends the
cycle of `s`. It is `step`, flattened (`edge_iff_step`). -/
inductive Edge (s : State) : State → Prop where
  | reset (rst : s.inRst = true) : Edge s s.resetEdge
  | nop (acc : s.accepted = some .nop) : Edge s s.tick
  | read (i : Instr) (g : GainCode) (acc : s.accepted = some i) (gain : gainOf i = some g) :
      Edge s (s.startRead g)
  | powerDown (acc : s.accepted = some .powerDown) : Edge s (s.startPower true)
  | powerUp (acc : s.accepted = some .powerUp) : Edge s (s.startPower false)
  | reserved (i : Instr) (acc : s.accepted = some i) (res : i.reserved = true) : Edge s s.setIll
  | quiet (rst : s.inRst = false) (acc : s.accepted = none) (st : s.st = .idle) : Edge s s.tick
  | countHigh (rst : s.inRst = false) (st : s.st = .hi) (inside : s.tmr < s.params.tHalf - 1) :
      Edge s s.countTmr
  | endHigh (rst : s.inRst = false) (st : s.st = .hi) (last : ¬ s.tmr < s.params.tHalf - 1) :
      Edge s s.endHigh
  | countLow (rst : s.inRst = false) (st : s.st = .lo) (inside : s.tmr < s.params.tHalf - 1) :
      Edge s s.countTmr
  | nextPulse (rst : s.inRst = false) (st : s.st = .lo) (last : ¬ s.tmr < s.params.tHalf - 1)
      (more : s.cnt.toNat < 24 + s.g.toNat) : Edge s s.nextPulse
  | complete (rst : s.inRst = false) (st : s.st = .lo) (last : ¬ s.tmr < s.params.tHalf - 1)
      (final : ¬ s.cnt.toNat < 24 + s.g.toNat) : Edge s s.complete
  | countPower (rst : s.inRst = false) (st : s.st = .pwr) (inside : s.tmr < s.params.tPwr - 1) :
      Edge s s.countTmr
  | endPower (rst : s.inRst = false) (st : s.st = .pwr) (last : ¬ s.tmr < s.params.tPwr - 1) :
      Edge s s.endPower

/-- The edge of an accepted command. -/
theorem Edge.of_exec {s t : State} {i : Instr} (acc : s.accepted = some i)
    (h : exec i s = .next t) : Edge s t := by
  obtain ⟨rfl, e⟩ | ⟨g, gain, e⟩ | ⟨rfl, e⟩ | ⟨rfl, e⟩ | ⟨res, e⟩ := exec_cases i s <;>
    cases e.symm.trans h
  · exact .nop acc
  · exact .read i g acc gain
  · exact .powerDown acc
  · exact .powerUp acc
  · exact .reserved i acc res

/-- The edge without a reset and without an accepted command. -/
theorem Edge.of_phaseEdge {s : State} (rst : s.inRst = false) (acc : s.accepted = none) :
    Edge s s.phaseEdge := by
  obtain ⟨st, e⟩ | ⟨st, e⟩ | ⟨st, e⟩ | ⟨st, e⟩ := s.phaseEdge_cases <;> rw [e]
  · exact .quiet rst acc st
  · obtain ⟨inside, e⟩ | ⟨last, e⟩ := s.hiEdge_cases <;> rw [e]
    · exact .countHigh rst st inside
    · exact .endHigh rst st last
  · obtain ⟨inside, e⟩ | ⟨last, more, e⟩ | ⟨last, final, e⟩ := s.loEdge_cases <;> rw [e]
    · exact .countLow rst st inside
    · exact .nextPulse rst st last more
    · exact .complete rst st last final
  · obtain ⟨inside, e⟩ | ⟨last, e⟩ := s.pwrEdge_cases <;> rw [e]
    · exact .countPower rst st inside
    · exact .endPower rst st last

theorem Edge.of_step {s t : State} (h : step s = .next t) : Edge s t := by
  obtain ⟨rst, rfl⟩ | ⟨-, i, acc, he⟩ | ⟨rst, acc, rfl⟩ := step_cases h
  · exact .reset rst
  · exact .of_exec acc he
  · exact .of_phaseEdge rst acc

/-- A busy block takes its phase edge. -/
theorem step_of_busy {s : State} (rst : s.inRst = false) (busy : s.st ≠ .idle) :
    step s = .next s.phaseEdge :=
  step_of_none rst (State.accepted_of_busy busy)

theorem Edge.step_eq {s t : State} (e : Edge s t) : step s = .next t := by
  cases e with
  | reset rst => exact step_of_rst rst
  | nop acc => exact step_of_accepted acc
  | read i g acc gain => rw [step_of_accepted acc, exec_of_gainOf gain]
  | powerDown acc => exact step_of_accepted acc
  | powerUp acc => exact step_of_accepted acc
  | reserved i acc res => rw [step_of_accepted acc, exec_of_reserved res]
  | quiet rst acc st => simp [step_of_none rst acc, State.phaseEdge, st]
  | countHigh rst st timer | endHigh rst st timer =>
    simp [step_of_busy rst, State.phaseEdge, State.hiEdge, st, timer]
  | countLow rst st inside =>
    simp [step_of_busy rst, State.phaseEdge, State.loEdge, st, inside]
  | nextPulse rst st last cnt | complete rst st last cnt =>
    simp [step_of_busy rst, State.phaseEdge, State.loEdge, st, last, cnt]
  | countPower rst st timer | endPower rst st timer =>
    simp [step_of_busy rst, State.phaseEdge, State.pwrEdge, st, timer]

theorem edge_iff_step {s t : State} : Edge s t ↔ step s = .next t := ⟨Edge.step_eq, Edge.of_step⟩

/-! What the guards of an edge say of acceptance and completion. -/

theorem State.inRst_of_accepted {s : State} {i : Instr} (acc : s.accepted = some i) :
    s.inRst = false := by
  obtain ⟨rst, -⟩ := State.accepted_eq_some.mp acc
  exact rst

theorem State.st_of_accepted {s : State} {i : Instr} (acc : s.accepted = some i) :
    s.st = .idle := by
  obtain ⟨-, -, st, -⟩ := State.accepted_eq_some.mp acc
  exact st

theorem State.accepted_of_rst {s : State} (rst : s.inRst = true) : s.accepted = none := by
  simp [State.accepted, rst]

theorem State.completes_iff {s : State} : s.completes = true ↔
    s.inRst = false ∧ s.st = .lo ∧ ¬ s.tmr < s.params.tHalf - 1 ∧
      ¬ s.cnt.toNat < 24 + s.g.toNat := by
  simp [State.completes, and_assoc]

theorem State.completes_of_st_ne_lo {s : State} (h : s.st ≠ .lo) : s.completes = false := by
  simp [State.completes, h]

/-! READs and reserved words among the instructions. -/

theorem gainOf_of_reserved {i : Instr} (res : i.reserved = true) : gainOf i = none := by
  cases i <;> simp_all [gainOf, Instr.reserved]

theorem reserved_of_gainOf {i : Instr} {g : GainCode} (gain : gainOf i = some g) :
    i.reserved = false := by
  cases i <;> simp_all [gainOf, Instr.reserved]

/-- R63: the gain code of a READ is 0, 1 or 2. -/
theorem gain_le_two {i : Instr} {g : GainCode} (gain : gainOf i = some g) : g.toNat ≤ 2 := by
  cases i <;> simp only [gainOf, reduceCtorEq, Option.some.injEq] at gain <;> subst gain <;> decide

/-- R63: the gain code of a READ is the argument field of its word. -/
theorem argField_of_gainOf_decode :
    ∀ {w : Cmd} {g : GainCode}, gainOf (decode w) = some g → argField w = g := by decide

/-! The model's own fields. -/

/-- A command moves the inputs on and keeps the parameters, accepted or not. -/
theorem exec_inputs {i : Instr} {s t : State} (h : exec i s = .next t) :
    t.params = s.params ∧ t.port = s.port.tail ∧ t.line = s.line.tail ∧ t.cycle = s.cycle + 1 := by
  obtain ⟨-, e⟩ | ⟨g, -, e⟩ | ⟨-, e⟩ | ⟨-, e⟩ | ⟨-, e⟩ := exec_cases i s <;>
    (cases e.symm.trans h; simp)

/-- After `n` edges the parameters are the same, and cycle `j` from then on is cycle `n + j` from
before. -/
theorem run_inputs {n : Nat} {s t : State} (h : run n s = .next t) :
    t.params = s.params ∧
    ∀ j, t.portAt j = s.portAt (n + j) ∧ t.doutAt j = s.doutAt (n + j) := by
  induction n generalizing s with
  | zero =>
    cases h
    simp
  | succ n ih =>
    cases hs : step s with
    | next u =>
      rw [run_succ_of_step hs] at h
      obtain ⟨params, port, line, cycle⟩ := step_inputs hs
      obtain ⟨params', later⟩ := ih h
      refine ⟨params'.trans params, fun j => ?_⟩
      rw [(later j).1, (later j).2, State.portAt_of_tail port, State.doutAt_of_tail line cycle,
        show n + j + 1 = n + 1 + j by omega]
      exact ⟨rfl, rfl⟩
    | fault r => exact nomatch r
    | refused r => simp [run, hs] at h

theorem run_params {n : Nat} {s t : State} (h : run n s = .next t) : t.params = s.params :=
  (run_inputs h).1

theorem run_portAt {n : Nat} {s t : State} (h : run n s = .next t) (j : Nat) :
    t.portAt j = s.portAt (n + j) := ((run_inputs h).2 j).1

theorem run_doutAt {n : Nat} {s t : State} (h : run n s = .next t) (j : Nat) :
    t.doutAt j = s.doutAt (n + j) := ((run_inputs h).2 j).2

/-- Settles O36: `step_inputs` and `exec_inputs`, and what a shorter list gives in each cycle. -/
theorem parametersFixedInputsAdvance : Obligations.ParametersFixedInputsAdvance := by
  intro s t i h
  obtain ⟨params, port, line, cycle⟩ := h.elim step_inputs exec_inputs
  exact ⟨params, cycle, fun j => ⟨State.portAt_of_tail port j, State.doutAt_of_tail line cycle j⟩⟩

end Sys2Proof.Machine
end

section
/-! PROOFS. What one step does to each register, whatever the command and the phase (10_state.md R23 to
R31, R38): each statement is a walk over the edges. -/

namespace Sys2Proof.Machine

/-- R26, R92: only completion and reset edges write the frame register. -/
theorem step_frame {s t : State} (h : step s = .next t) :
    t.frame = if s.inRst then 0 else if s.completes then s.sr else s.frame := by
  cases Edge.of_step h with
  | reset rst => simp [rst]
  | complete rst st last final => simp [rst, State.completes_iff.mpr ⟨rst, st, last, final⟩]
  | nextPulse rst st last more => simp [State.completes, rst, more]
  | countLow rst st inside => simp [State.completes, rst, inside]
  | nop acc | read _ _ acc | powerDown acc | powerUp acc | reserved _ acc =>
    simp [State.completes, State.inRst_of_accepted acc, State.st_of_accepted acc]
  | quiet rst _ st | countHigh rst st | endHigh rst st | countPower rst st | endPower rst st =>
    simp [State.completes, rst, st]

/-- Settles O30: `step_frame`, and `value` is a function of the frame register. -/
theorem frameChangesOnlyAtCompletionOrReset :
    Obligations.FrameChangesOnlyAtCompletionOrReset := by
  intro s t h
  have frame := step_frame h
  refine ⟨frame, fun changed => ?_⟩
  by_contra neither
  obtain ⟨rst, completes⟩ := not_or.mp neither
  rw [if_neg rst, if_neg completes] at frame
  exact changed (by rw [State.value, State.value, frame])

/-- R38: in a cycle with `rst = 0`, what the edge does to `valid`, `nrdy` and `ill`. -/
theorem step_flags {s t : State} (h : step s = .next t) (rst : s.inRst = false) :
    t.valid = ((s.valid && (s.accepted.bind gainOf).isNone) || s.completes) ∧
    t.nrdy = (s.nrdy || ((s.accepted.bind gainOf).isSome && !s.ready)) ∧
    t.ill = (s.ill || (s.accepted.map Instr.reserved == some true)) := by
  cases Edge.of_step h with
  | reset rst' => simp [rst] at rst'
  | read i g acc gain =>
    have st := State.st_of_accepted acc
    simp [acc, gain, State.completes, st, State.nrdyAfterRead, State.readyNow, State.ready,
      reserved_of_gainOf gain]
  | reserved i acc res =>
    simp [acc, res, gainOf_of_reserved res, State.completes, State.st_of_accepted acc]
  | nop acc | powerDown acc | powerUp acc =>
    simp [acc, gainOf, Instr.reserved, State.completes, State.st_of_accepted acc]
  | quiet _ acc st => simp [acc, State.completes, st]
  | complete _ st last final =>
    simp [State.accepted_of_busy, st, State.completes_iff.mpr ⟨rst, st, last, final⟩]
  | nextPulse _ st _ cnt | countLow _ st cnt =>
    simp [State.accepted_of_busy, st, State.completes, cnt]
  | countHigh _ st | endHigh _ st | countPower _ st | endPower _ st =>
    simp [State.accepted_of_busy, st, State.completes]

/-- Settles O31: the reset edge, and `step_flags`. -/
theorem flagsSetAndCleared : Obligations.FlagsSetAndCleared := by
  refine fun s t h => ⟨fun rst => ?_, step_flags h⟩
  cases (step_of_rst rst).symm.trans h
  simp

/-- R38: the guards of an edge read no flag and not the frame register, so a state with other flags and
another frame takes the same edge, which carries none of them into another field. -/
theorem Edge.with_flags {s t : State} (e : Edge s t) (v d n i : Bool) (f : Frame) :
    ∃ v' n' i' f', Edge { s with valid := v, done := d, nrdy := n, ill := i, frame := f }
      { t with valid := v', nrdy := n', ill := i', frame := f' } := by
  cases e with
  | reset rst => exact ⟨_, _, _, _, .reset rst⟩
  | nop acc => exact ⟨_, _, _, _, .nop acc⟩
  | read j g acc gain => exact ⟨_, _, _, _, .read j g acc gain⟩
  | powerDown acc => exact ⟨_, _, _, _, .powerDown acc⟩
  | powerUp acc => exact ⟨_, _, _, _, .powerUp acc⟩
  | reserved j acc res => exact ⟨_, _, _, _, .reserved j acc res⟩
  | quiet rst acc st => exact ⟨_, _, _, _, .quiet rst acc st⟩
  | countHigh rst st inside => exact ⟨_, _, _, _, .countHigh rst st inside⟩
  | endHigh rst st last => exact ⟨_, _, _, _, .endHigh rst st last⟩
  | countLow rst st inside => exact ⟨_, _, _, _, .countLow rst st inside⟩
  | nextPulse rst st last more => exact ⟨_, _, _, _, .nextPulse rst st last more⟩
  | complete rst st last final => exact ⟨_, _, _, _, .complete rst st last final⟩
  | countPower rst st inside => exact ⟨_, _, _, _, .countPower rst st inside⟩
  | endPower rst st last => exact ⟨_, _, _, _, .endPower rst st last⟩

/-- Settles O32: `Edge.with_flags`. -/
theorem noFlagChangesBehaviour : Obligations.NoFlagChangesBehaviour := by
  intro s v d n i f t u h h'
  obtain ⟨v', n', i', f', same⟩ := (Edge.of_step h).with_flags v d n i f
  cases same.step_eq.symm.trans h'
  simp

/-- R27: a command that is accepted, and the clock line. -/
theorem sck_of_accepted {s t : State} {i : Instr} (h : step s = .next t)
    (acc : s.accepted = some i) : t.sck =
      if (gainOf i).isSome ∨ i = .powerDown then true else if i = .powerUp then false else s.sck := by
  rw [step_of_accepted acc] at h
  obtain ⟨rfl, e⟩ | ⟨g, gain, e⟩ | ⟨rfl, e⟩ | ⟨rfl, e⟩ | ⟨res, e⟩ := exec_cases i s <;>
    cases e.symm.trans h
  · simp [gainOf]
  · simp [gain]
  · simp
  · simp [gainOf]
  · have notDown : i ≠ .powerDown := by rintro rfl; cases res
    have notUp : i ≠ .powerUp := by rintro rfl; cases res
    simp [gainOf_of_reserved res, notDown, notUp]

/-- R27: a phase edge, and the clock line. -/
theorem sck_phaseEdge (s : State) : s.phaseEdge.sck =
    if s.st = .hi ∧ ¬ s.tmr < s.params.tHalf - 1 then false
    else if s.st = .lo ∧ ¬ s.tmr < s.params.tHalf - 1 ∧ s.cnt.toNat < 24 + s.g.toNat then true
    else s.sck := by
  obtain ⟨st, e⟩ | ⟨st, e⟩ | ⟨st, e⟩ | ⟨st, e⟩ := s.phaseEdge_cases <;> rw [e]
  · simp [st]
  · obtain ⟨inside, e⟩ | ⟨last, e⟩ := s.hiEdge_cases <;> simp [*]
  · obtain ⟨inside, e⟩ | ⟨last, more, e⟩ | ⟨last, final, e⟩ := s.loEdge_cases <;> simp [*]
  · obtain ⟨-, e⟩ | ⟨-, e⟩ := s.pwrEdge_cases <;> simp [e, st]

/-- Settles O33: the reset edge, `sck_of_accepted` and `sck_phaseEdge`. -/
theorem clockLineRule : Obligations.ClockLineRule := by
  refine fun s t h => ⟨fun rst => ?_, fun i => sck_of_accepted h, fun rst acc => ?_⟩
  · cases (step_of_rst rst).symm.trans h
    rfl
  · cases (step_of_none rst acc).symm.trans h
    exact sck_phaseEdge s

/-- Settles O34: `g` is written at a reset and at the acceptance of a READ, `sr` there and at the end of a
high half; every other edge carries both over. -/
theorem gainAndShiftRegisterWriters : Obligations.GainAndShiftRegisterWriters := by
  intro s t h
  cases Edge.of_step h with
  | reset rst => simp [rst]
  | read i g acc gain =>
    obtain ⟨rst, -, -, rfl⟩ := State.accepted_eq_some.mp acc
    simp [acc, gain, rst, argField_of_gainOf_decode gain]
  | nop acc | powerDown acc | powerUp acc =>
    simp [acc, gainOf, State.inRst_of_accepted acc, State.st_of_accepted acc]
  | reserved i acc res =>
    simp [acc, gainOf_of_reserved res, State.inRst_of_accepted acc, State.st_of_accepted acc]
  | quiet rst acc st => simp [acc, rst, st]
  | endHigh rst st last => simp [State.accepted_of_busy, rst, st, last]
  | countHigh rst st inside => simp [State.accepted_of_busy, rst, st, inside]
  | countLow rst st | nextPulse rst st | complete rst st | countPower rst st | endPower rst st =>
    simp [State.accepted_of_busy, rst, st]

end Sys2Proof.Machine
end

section
/-! PROOFS. The invariant of 10_state.md R32: what it asks of a state in each phase, and that every edge
keeps it. -/

namespace Sys2Proof.Machine

/-! The invariant, one phase at a time. -/

theorem Inv.of_idle {s : State} (st : s.st = .idle) (tmr : s.tmr = 0) (cnt : s.cnt = 0)
    (gain : s.g.toNat ≤ 2) (done : s.done = true → s.valid = true ∧ s.sck = false) : Inv s := by
  constructor <;> simp_all [State.reading]

theorem Inv.of_pwr {s : State} (st : s.st = .pwr) (tmr : s.tmr < s.params.tPwr) (cnt : s.cnt = 0)
    (gain : s.g.toNat ≤ 2) (done : s.done = false) : Inv s := by
  constructor <;> simp_all [State.reading]

theorem Inv.of_reading {s : State} (reading : s.reading) (tmr : s.tmr < s.params.tHalf)
    (gain : s.g.toNat ≤ 2) (cnt : s.cnt.toNat ≤ 24 + s.g.toNat) (sck : s.sck = decide (s.st = .hi))
    (sr : s.sr.toNat < 2 ^ s.samples) (valid : s.valid = false) (done : s.done = false) :
    Inv s where
  idle_clear st := by simp [State.reading, st] at reading
  reading_range _ := ⟨tmr, gain, cnt⟩
  hi_high st := by simp [sck, st]
  lo_low st := by simp [sck, st]
  pwr_range st := by simp [State.reading, st] at reading
  sr_clear_above _ := sr
  reading_invalid _ := valid
  gain_range := gain
  cnt_range := by omega
  done_idle h := by simp [done] at h

/-- In a READ the clock line is high exactly in the high half. -/
theorem Inv.sck_of_reading {s : State} (inv : Inv s) (reading : s.reading) :
    s.sck = decide (s.st = .hi) := by
  obtain st | st := reading
  · simp [st, inv.hi_high st]
  · simp [st, inv.lo_low st]

/-! How many samples the edges of a pulse leave taken. -/

theorem State.samples_of_hi {s : State} (st : s.st = .hi) : s.samples = min 24 s.cnt.toNat := by
  simp [State.samples, st]

theorem State.samples_of_lo {s : State} (st : s.st = .lo) :
    s.samples = min 24 (s.cnt.toNat + 1) := by
  simp [State.samples, st]

/-- The pulse index does not wrap: it is counted only while it is below `24 + g`. -/
theorem State.nextPulse_cnt_toNat {s : State} (more : s.cnt.toNat < 24 + s.g.toNat) :
    s.nextPulse.cnt.toNat = s.cnt.toNat + 1 := by
  have := s.g.isLt
  have one : (1 : PulseIdx).toNat = 1 := rfl
  rw [State.nextPulse_cnt, BitVec.toNat_add_of_lt (by omega), one]

theorem State.samples_nextPulse {s : State} (st : s.st = .lo)
    (more : s.cnt.toNat < 24 + s.g.toNat) : s.nextPulse.samples = s.samples := by
  rw [State.samples_of_hi s.nextPulse_st, State.nextPulse_cnt_toNat more, State.samples_of_lo st]

theorem State.samples_endHigh {s : State} (st : s.st = .hi) :
    s.endHigh.samples = if s.cnt.toNat < 24 then s.samples + 1 else s.samples := by
  rw [State.samples_of_lo s.endHigh_st, State.samples_of_hi st, State.endHigh_cnt]
  split <;> omega

/-- R25: the edge that ends a high half keeps the bits above the samples at 0. -/
theorem State.endHigh_sr_lt {s : State} (st : s.st = .hi) (h : s.sr.toNat < 2 ^ s.samples) :
    s.endHigh.sr.toNat < 2 ^ s.endHigh.samples := by
  rw [State.samples_endHigh st, State.endHigh_sr]
  split
  case isTrue data =>
    have below : s.sr.toNat < 2 ^ 23 :=
      h.trans_le (Nat.pow_le_pow_right (by omega) (by rw [State.samples_of_hi st]; omega))
    have bit : s.inDout.toNat ≤ 1 := Bool.toNat_le s.inDout
    rw [toNat_shiftIn _ _ below, Nat.pow_succ]
    omega
  case isFalse => exact h

/-! Every edge keeps the invariant. -/

/-- R82: a command meets an idle block. -/
theorem Inv.clear_of_accepted {s : State} {i : Instr} (inv : Inv s) (acc : s.accepted = some i) :
    s.st = .idle ∧ s.tmr = 0 ∧ s.cnt = 0 :=
  ⟨State.st_of_accepted acc, inv.idle_clear (State.st_of_accepted acc)⟩

/-- An edge inside a half of a pulse. -/
theorem Inv.countTmr_of_reading {s : State} (inv : Inv s) (reading : s.reading)
    (inside : s.tmr < s.params.tHalf - 1) : Inv s.countTmr := by
  obtain ⟨-, gain, cnt⟩ := inv.reading_range reading
  exact .of_reading reading (by simp; omega) gain cnt (inv.sck_of_reading reading)
    (inv.sr_clear_above reading) (inv.reading_invalid reading) rfl

theorem Inv.startRead {s : State} {g : GainCode} (gain : g.toNat ≤ 2) : Inv (s.startRead g) :=
  .of_reading (.inl rfl) s.params.tHalf_pos gain (by simp) rfl (by simp) rfl rfl

theorem Inv.startPower {s : State} {level : Bool} {i : Instr} (inv : Inv s)
    (acc : s.accepted = some i) : Inv (s.startPower level) :=
  have ⟨_, _, cnt⟩ := inv.clear_of_accepted acc
  .of_pwr rfl s.params.tPwr_pos cnt inv.gain_range rfl

theorem Inv.endHigh {s : State} (inv : Inv s) (st : s.st = .hi) : Inv s.endHigh := by
  obtain ⟨-, gain, cnt⟩ := inv.reading_range (.inl st)
  exact .of_reading (.inr rfl) s.params.tHalf_pos gain cnt rfl
    (State.endHigh_sr_lt st (inv.sr_clear_above (.inl st))) (inv.reading_invalid (.inl st)) rfl

theorem Inv.nextPulse {s : State} (inv : Inv s) (st : s.st = .lo)
    (more : s.cnt.toNat < 24 + s.g.toNat) : Inv s.nextPulse :=
  .of_reading (.inl rfl) s.params.tHalf_pos inv.gain_range
    (by rw [State.nextPulse_cnt_toNat more]; exact more) rfl
    (by rw [State.samples_nextPulse st more]; exact inv.sr_clear_above (.inr st))
    (inv.reading_invalid (.inr st)) rfl

/-- R32: one edge keeps the invariant. -/
theorem Edge.inv {s t : State} (e : Edge s t) (inv : Inv s) : Inv t := by
  cases e with
  | reset rst => exact .of_idle rfl rfl rfl (by simp) (by simp)
  | nop acc | reserved _ acc =>
    obtain ⟨st, tmr, cnt⟩ := inv.clear_of_accepted acc
    exact .of_idle st tmr cnt inv.gain_range (by simp)
  | quiet rst acc st =>
    obtain ⟨tmr, cnt⟩ := inv.idle_clear st
    exact .of_idle st tmr cnt inv.gain_range (by simp)
  | read i g acc gain => exact .startRead (gain_le_two gain)
  | powerDown acc | powerUp acc => exact inv.startPower acc
  | countHigh rst st inside => exact inv.countTmr_of_reading (.inl st) inside
  | endHigh rst st last => exact inv.endHigh st
  | countLow rst st inside => exact inv.countTmr_of_reading (.inr st) inside
  | nextPulse rst st last more => exact inv.nextPulse st more
  | complete rst st last final =>
    exact .of_idle rfl rfl rfl inv.gain_range fun _ => ⟨rfl, inv.lo_low st⟩
  | countPower rst st inside =>
    exact .of_pwr st (by simp; omega) (inv.pwr_range st).2 inv.gain_range rfl
  | endPower rst st last => exact .of_idle rfl rfl (inv.pwr_range st).2 inv.gain_range (by simp)

/-- Settles O26: `Edge.inv`. -/
theorem stepKeepsInvariant : Obligations.StepKeepsInvariant :=
  fun _ _ inv h => (Edge.of_step h).inv inv

/-- Settles O25: the reset state is idle with every field clear. -/
theorem invariantHoldsAtReset : Obligations.InvariantHoldsAtReset :=
  .of_idle rfl rfl rfl (by decide) (by simp [State.reset])

/-! The width of the phase timer (R24). -/

theorem Inv.tmr_lt_max {s : State} (inv : Inv s) : s.tmr < max s.params.tHalf s.params.tPwr := by
  have := s.params.tHalf_pos
  cases st : s.st with
  | idle => rw [(inv.idle_clear st).1]; omega
  | hi => exact (inv.reading_range (.inl st)).1.trans_le (le_max_left ..)
  | lo => exact (inv.reading_range (.inr st)).1.trans_le (le_max_left ..)
  | pwr => exact (inv.pwr_range st).1.trans_le (le_max_right ..)

theorem max_le_two_pow_tmrWidth (p : Params) :
    max p.tHalf p.tPwr ≤ 2 ^ p.tmrWidth :=
  (Nat.le_pow_clog one_lt_two _).trans (Nat.pow_le_pow_right two_pos (le_max_right ..))

/-- Settles O28: `Inv.tmr_lt_max`, and the width is the least that holds the values below that maximum. -/
theorem timerFitsItsWidth : Obligations.TimerFitsItsWidth := fun _ inv =>
  ⟨inv.tmr_lt_max, inv.tmr_lt_max.trans_le (max_le_two_pow_tmrWidth _), le_max_left ..,
    fun _ holds one_le => max_le one_le (Nat.clog_le_of_le_pow holds)⟩

end Sys2Proof.Machine
end

section
/-! PROOFS. The output ports and the status word (10_state.md R34, R35). -/

namespace Sys2Proof.Machine

/-- R35: the bits of the status word. -/
theorem State.getLsbD_status (s : State) :
    s.status.getLsbD 0 = s.busy ∧ s.status.getLsbD 1 = s.valid ∧ s.status.getLsbD 2 = s.done ∧
    s.status.getLsbD 3 = s.nrdy ∧ s.status.getLsbD 4 = s.ill ∧ s.status.getLsbD 5 = s.sck ∧
    s.status.getLsbD 6 = s.ready ∧ s.status.getLsbD 7 = false := by
  rw [State.status]
  generalize s.busy = busy, s.ready = ready, s.valid = valid, s.done = done, s.nrdy = nrdy,
    s.ill = ill, s.sck = sck
  revert busy ready valid done nrdy ill sck
  decide

/-- R170: the status word of the reset state. -/
theorem State.status_of_reset {s : State} (h : s.block = resetState) :
    s.status = 0b0#1 ++ BitVec.ofBool (!s.inDout) ++ 0b000000#6 := by
  simp only [State.block, resetState, Block.mk.injEq] at h
  obtain ⟨st, -, -, -, -, -, sck, valid, done, nrdy, ill⟩ := h
  have busy : s.busy = false := by simp [State.busy, st]
  have ready : s.ready = !s.inDout := by simp [State.ready, st, sck]
  rw [State.status, busy, ready, sck, valid, done, nrdy, ill]
  cases s.inDout <;> rfl

/-- Settles O38: `State.getLsbD_status` and `State.status_of_reset`. -/
theorem statusWordBits : Obligations.StatusWordBits := by
  intro s
  obtain ⟨busy, valid, done, nrdy, ill, sck, ready, zero⟩ := s.getLsbD_status
  exact ⟨busy, valid, done, nrdy, ill, sck, ready, zero, State.status_of_reset⟩

/-- R34: `ready`. -/
theorem State.ready_iff {s : State} :
    s.ready = true ↔ s.inDout = false ∧ s.st = .idle ∧ s.sck = false := by
  simp [State.ready, and_assoc]

/-- Settles O39: a register's port is the register; `cmd_ready` and `busy` tell the phase, and `ready`
is `State.ready_iff`. -/
theorem outputPorts : Obligations.OutputPorts := fun _ =>
  ⟨rfl, decide_eq_true_iff, decide_eq_true_iff, rfl, rfl, rfl, rfl, State.ready_iff, rfl⟩

end Sys2Proof.Machine
end

section
/-! PROOFS. The shift register over a READ (10_state.md R25, R32): where a READ stands after `m` of its
cycles, and that its shift register holds the samples taken so far. -/

namespace Sys2Proof.Machine

/-- The low `k` bits of `sr` are the samples `0` to `k - 1`, the earliest highest, and the bits above
are 0. -/
def HoldsSamples (sample : Nat → Bool) (k : Nat) (sr : Frame) : Prop :=
  ∀ j, sr.getLsbD j = (decide (j < k) && sample (k - 1 - j))

theorem HoldsSamples.zero (sample : Nat → Bool) : HoldsSamples sample 0 0 := by
  simp [HoldsSamples]

/-- R91: one sample more. -/
theorem HoldsSamples.shiftIn {sample : Nat → Bool} {k : Nat} {sr : Frame}
    (h : HoldsSamples sample k sr) (room : k < 24) :
    HoldsSamples sample (k + 1) (shiftIn sr (sample k)) := by
  intro j
  rw [getLsbD_shiftIn]
  cases j with
  | zero => simp
  | succ j =>
    rw [h, show k + 1 - 1 - (j + 1) = k - 1 - j by omega]
    by_cases inside : j < k
    · simp [inside, show j + 1 < 24 by omega]
    · simp [inside]

/-- R96: the level of `dout` at the sample of pulse `i` of the READ accepted at the edge that ends the
cycle of `s`. -/
def State.sampleAt (s : State) (i : Nat) : Bool :=
  s.doutAt (2 * i * s.params.tHalf + s.params.tHalf)

/-- The halves of pulses that a READ has behind it. -/
def State.halvesDone (s : State) : Nat := 2 * s.cnt.toNat + if s.st = .lo then 1 else 0

theorem State.halvesDone_of_hi {s : State} (st : s.st = .hi) : s.halvesDone = 2 * s.cnt.toNat := by
  simp [State.halvesDone, st]

theorem State.halvesDone_of_lo {s : State} (st : s.st = .lo) :
    s.halvesDone = 2 * s.cnt.toNat + 1 := by
  simp [State.halvesDone, st]

/-- Where the READ with gain code `g` that is accepted at the edge that ends the cycle of `s` stands
in its cycle `m`, the first being cycle 0. -/
structure ReadCycle (s : State) (g : GainCode) (m : Nat) (t : State) : Prop where
  reached : run (1 + m) s = .next t
  reading : t.reading
  gain : t.g = g
  timer : t.tmr < s.params.tHalf
  elapsed : m = t.halvesDone * s.params.tHalf + t.tmr
  samples : HoldsSamples s.sampleAt t.samples t.sr

theorem State.startsRead_iff {s : State} {g : GainCode} :
    s.startsRead g ↔ ∃ i, s.accepted = some i ∧ gainOf i = some g := by
  simp [State.startsRead, Option.bind_eq_some_iff]

/-- R90: the acceptance edge leads to cycle 0. -/
theorem ReadCycle.start {s : State} {g : GainCode} (h : s.startsRead g) :
    ReadCycle s g 0 (s.startRead g) := by
  obtain ⟨i, acc, gain⟩ := State.startsRead_iff.mp h
  exact {
    reached := (run_one s).trans (Edge.read i g acc gain).step_eq
    reading := .inl rfl
    gain := rfl
    timer := s.params.tHalf_pos
    elapsed := by rw [State.halvesDone_of_hi rfl]; simp
    samples := HoldsSamples.zero _ }

section Edges

variable {s t : State} {g : GainCode} {m : Nat}

theorem ReadCycle.params (c : ReadCycle s g m t) : t.params = s.params :=
  run_params c.reached

theorem ReadCycle.reached_next {u : State} (c : ReadCycle s g m t) (e : Edge t u) :
    run (1 + (m + 1)) s = .next u := by
  rw [← Nat.add_assoc, run_add c.reached, run_one, e.step_eq]

/-- In the last cycle of a half, one more half is done at the edge. -/
theorem ReadCycle.elapsed_last (c : ReadCycle s g m t) (last : ¬ t.tmr < t.params.tHalf - 1) :
    m + 1 = (t.halvesDone + 1) * s.params.tHalf := by
  have timer := c.timer
  have elapsed := c.elapsed
  rw [c.params] at last
  rw [Nat.succ_mul]
  omega

/-- R96: the level of `dout` in the last cycle of a high half is the sample of its pulse. -/
theorem ReadCycle.inDout_eq (c : ReadCycle s g m t) (st : t.st = .hi)
    (last : ¬ t.tmr < t.params.tHalf - 1) : t.inDout = s.sampleAt t.cnt.toNat := by
  have now := c.elapsed_last last
  rw [State.halvesDone_of_hi st, Nat.succ_mul] at now
  rw [State.inDout, run_doutAt c.reached, State.sampleAt]
  congr 1
  omega

/-- An edge inside a half. -/
theorem ReadCycle.countTmr (c : ReadCycle s g m t) (e : Edge t t.countTmr)
    (inside : t.tmr < t.params.tHalf - 1) : ReadCycle s g (m + 1) t.countTmr where
  reached := c.reached_next e
  reading := c.reading
  gain := c.gain
  timer := by rw [c.params] at inside; rw [State.countTmr_tmr]; omega
  elapsed := congrArg (· + 1) c.elapsed
  samples := c.samples

/-- R91: the edge that ends a high half; in a data pulse it takes a sample. -/
theorem ReadCycle.endHigh (c : ReadCycle s g m t) (e : Edge t t.endHigh) (st : t.st = .hi)
    (last : ¬ t.tmr < t.params.tHalf - 1) : ReadCycle s g (m + 1) t.endHigh where
  reached := c.reached_next e
  reading := .inr rfl
  gain := c.gain
  timer := s.params.tHalf_pos
  elapsed := by
    rw [c.elapsed_last last, State.halvesDone_of_hi st, State.halvesDone_of_lo t.endHigh_st]
    rfl
  samples := by
    rw [State.samples_endHigh st, State.endHigh_sr]
    split
    case isTrue data =>
      have taken : t.samples = t.cnt.toNat := by rw [State.samples_of_hi st]; omega
      have samples := c.samples
      rw [taken] at samples ⊢
      rw [c.inDout_eq st last]
      exact samples.shiftIn data
    case isFalse => exact c.samples

/-- R92: the edge that ends a low half and begins the next pulse. -/
theorem ReadCycle.nextPulse (c : ReadCycle s g m t) (e : Edge t t.nextPulse) (st : t.st = .lo)
    (last : ¬ t.tmr < t.params.tHalf - 1) (more : t.cnt.toNat < 24 + t.g.toNat) :
    ReadCycle s g (m + 1) t.nextPulse where
  reached := c.reached_next e
  reading := .inl rfl
  gain := c.gain
  timer := s.params.tHalf_pos
  elapsed := by
    rw [c.elapsed_last last, State.halvesDone_of_lo st, State.halvesDone_of_hi t.nextPulse_st,
      State.nextPulse_cnt_toNat more]
    rfl
  samples := by
    rw [State.samples_nextPulse st more]
    exact c.samples

/-- R97: the completion edge ends cycle `L(g) - 1` or a later one. -/
theorem ReadCycle.le_of_final (c : ReadCycle s g m t) (st : t.st = .lo)
    (last : ¬ t.tmr < t.params.tHalf - 1) (final : ¬ t.cnt.toNat < 24 + t.g.toNat) :
    2 * s.params.tHalf * (25 + g.toNat) ≤ m + 1 := by
  rw [c.elapsed_last last, State.halvesDone_of_lo st, Nat.mul_right_comm]
  rw [c.gain] at final
  exact Nat.mul_le_mul_right _ (by omega)

/-- Without a reset the READ goes on to its next cycle, until `L(g)` of them are done. -/
theorem ReadCycle.next (c : ReadCycle s g m t) (rst : t.inRst = false)
    (more : m + 1 < 2 * s.params.tHalf * (25 + g.toNat)) : ∃ u, ReadCycle s g (m + 1) u := by
  obtain st | st := c.reading
  · by_cases inside : t.tmr < t.params.tHalf - 1
    · exact ⟨_, c.countTmr (.countHigh rst st inside) inside⟩
    · exact ⟨_, c.endHigh (.endHigh rst st inside) st inside⟩
  · by_cases inside : t.tmr < t.params.tHalf - 1
    · exact ⟨_, c.countTmr (.countLow rst st inside) inside⟩
    · by_cases pulse : t.cnt.toNat < 24 + t.g.toNat
      · exact ⟨_, c.nextPulse (.nextPulse rst st inside pulse) st inside pulse⟩
      · exact absurd (c.le_of_final st inside pulse) (by omega)

end Edges

/-- R96, R97: an accepted READ without a reset goes through all its cycles. -/
theorem exists_readCycle {s : State} {g : GainCode} (h : s.startsRead g)
    (noReset : s.noReset 1 (2 * s.params.tHalf * (25 + g.toNat))) :
    ∀ m, m < 2 * s.params.tHalf * (25 + g.toNat) → ∃ t, ReadCycle s g m t
  | 0, _ => ⟨_, .start h⟩
  | m + 1, more => by
    obtain ⟨t, c⟩ := exists_readCycle h noReset m (by omega)
    have rst : t.inRst = false := by
      rw [State.inRst, run_portAt c.reached]
      exact noReset m (by omega)
    exact c.next rst more

/-- Settles O45: `exists_readCycle`, and the two halves of `HoldsSamples`. -/
theorem shiftRegisterHoldsSamples : Obligations.ShiftRegisterHoldsSamples := by
  intro s g h noReset m more
  obtain ⟨t, c⟩ := exists_readCycle h noReset m more
  refine ⟨t, c.reached, c.reading, fun j above => ?_, fun i taken => ?_⟩
  · simp [c.samples j, above]
  · rw [c.samples, show t.samples - 1 - (t.samples - 1 - i) = i by omega]
    simp [State.sampleAt, show t.samples - 1 - i < t.samples by omega]

end Sys2Proof.Machine
end

section
/-! PROOFS. The opcode map and the gain code (30_encoding.md R60 to R63), and the loading of one word. -/

namespace Sys2Proof

theorem decode_encode (i : Instr) : decode (encode i) = i := by cases i <;> rfl

theorem encode_decode : ∀ w : Cmd, encode (decode w) = w := by decide

/-- R62, R64: the legal words are those that are not reserved. -/
theorem legalWord_eq_not_reserved : ∀ w : Cmd, legalWord w = !(decode w).reserved := by decide

/-- Settles O1: one evaluation per row, and `legalWord_eq_not_reserved`. -/
theorem opcodeMapDecodes : Obligations.OpcodeMapDecodes :=
  ⟨rfl, rfl, rfl, rfl, rfl, rfl, rfl, rfl, rfl, rfl, rfl, rfl, rfl, rfl, rfl, rfl,
    legalWord_eq_not_reserved⟩

theorem decodeNat_toNat (w : Cmd) : decodeNat w.toNat = .ok (decode w) := by
  rw [decodeNat, if_pos w.isLt, BitVec.ofNat_toNat, BitVec.setWidth_eq]

theorem decodeNat_of_ge {w : Nat} (wide : 16 ≤ w) :
    decodeNat w = .error (.widerThanTheCommandPort w) :=
  if_neg (Nat.not_lt.mpr wide)

/-- Settles O2: the two inverses, and the decoder over numbers on a command word and on a wider number. -/
theorem decodeAndEncodeAgree : Obligations.DecodeAndEncodeAgree := by
  refine ⟨decode_encode, encode_decode, fun i n => ?_, fun n w wide => ?_⟩
  · rw [decodeTableWord, decodeNat_toNat, decode_encode]
  · rw [decodeTableWord, decodeNat_of_ge wide]

end Sys2Proof

namespace Sys2Proof.Machine

/-- R63: the words of the READs, and their gain codes. -/
theorem gainOf_decode_eq_some_iff :
    ∀ {w : Cmd} {g : GainCode}, gainOf (decode w) = some g ↔ w = 0b01#2 ++ g ∧ g ≠ 3 := by decide

/-- Settles O4: `gainOf_decode_eq_some_iff` on an instruction's own word, and the rows of the table. -/
theorem gainCodeTable : Obligations.GainCodeTable := by
  refine ⟨fun i g => ?_, by decide⟩
  rw [← gainOf_decode_eq_some_iff, decode_encode]

/-- R82: the word that `withFetchWord` presents is accepted. -/
theorem State.accepted_withFetchWord (s : State) (i : Instr) (n : Nat) :
    (s.withFetchWord n (encode i).toNat).accepted = some i := by
  refine State.accepted_eq_some.mpr ⟨rfl, rfl, rfl, ?_⟩
  have word : (s.withFetchWord n (encode i).toNat).inCmd = encode i :=
    BitVec.ofNat_toNat 4 (encode i)
  rw [word, decode_encode]

/-- Settles O13: `State.accepted_withFetchWord`, and an accepted command is executed. -/
theorem loadedWordIsExecuted : Obligations.LoadedWordIsExecuted := fun s i n =>
  have acc := s.accepted_withFetchWord i n
  ⟨acc, step_of_accepted acc⟩

end Sys2Proof.Machine
end

section
/-! PROOFS. Scripts (30_encoding.md R67): in a well-formed script at most one line gives each cycle its
command, and at most one its level. -/

namespace Sys2Proof.Machine

theorem Line.commandIn_eq_some_iff {c : Nat} {l : Line} {w : Cmd} :
    l.commandIn c = some w ↔ l = .timedCommand c w := by
  cases l <;> simp [Line.commandIn]

theorem Line.levelIn_eq_some_iff {c : Nat} {l : Line} {b : Bool} :
    l.levelIn c = some b ↔ ∃ n m, l = .timedDout n m b ∧ n ≤ c ∧ c ≤ m := by
  cases l <;> simp [Line.levelIn, and_comm, and_assoc]

theorem Line.clashes_comm (l k : Line) : l.clashes k = k.clashes l := by
  cases l <;> cases k <;> simp [Line.clashes, eq_comm, and_comm]

theorem Script.pairwise_of_wellFormed {sc : Script} (wf : sc.wellFormed = true) :
    sc.Pairwise (fun l k => l.clashes k = false) := by
  induction sc with
  | nil => exact .nil
  | cons l r ih =>
    simp only [Script.wellFormed, Bool.and_eq_true, List.all_eq_true, Bool.not_eq_true'] at wf
    obtain ⟨⟨-, apart⟩, rest⟩ := wf
    exact .cons apart (ih rest)

/-- Log entry 10: lines of a well-formed script that clash are one line. -/
theorem Script.eq_of_clashes {sc : Script} (wf : sc.wellFormed = true) {l k : Line} (hl : l ∈ sc)
    (hk : k ∈ sc) (clash : l.clashes k = true) : l = k := by
  have : Std.Symm fun l k : Line => l.clashes k = false :=
    ⟨fun l k h => (k.clashes_comm l).trans h⟩
  by_contra ne
  simp [(Script.pairwise_of_wellFormed wf).forall hl hk ne] at clash

/-- What a line gives is what the script gives, where every line that gives anything is that line. -/
theorem findSome?_eq_some_of_unique {α β : Type} {f : α → Option β} {xs : List α} {x : α} {b : β}
    (mem : x ∈ xs) (gives : f x = some b) (unique : ∀ y ∈ xs, ∀ c, f y = some c → y = x) :
    xs.findSome? f = some b := by
  have found : (xs.findSome? f).isSome = true :=
    List.findSome?_isSome_iff.mpr ⟨x, mem, by simp [gives]⟩
  obtain ⟨c, found⟩ := Option.isSome_iff_exists.mp found
  obtain ⟨y, hy, hc⟩ := List.exists_of_findSome?_eq_some found
  cases unique y hy c hc
  rw [found, ← hc, gives]

section WellFormed

variable {sc : Script} (wf : sc.wellFormed = true)

include wf

theorem Script.findSome?_commandIn {c : Nat} {w : Cmd} (mem : Line.timedCommand c w ∈ sc) :
    sc.findSome? (Line.commandIn c) = some w := by
  refine findSome?_eq_some_of_unique mem (Line.commandIn_eq_some_iff.mpr rfl) fun k hk v gives => ?_
  cases Line.commandIn_eq_some_iff.mp gives
  exact Script.eq_of_clashes wf hk mem (by simp [Line.clashes])

theorem Script.findSome?_levelIn {c n m : Nat} {b : Bool} (mem : Line.timedDout n m b ∈ sc)
    (first : n ≤ c) (last : c ≤ m) : sc.findSome? (Line.levelIn c) = some b := by
  refine findSome?_eq_some_of_unique mem
    (Line.levelIn_eq_some_iff.mpr ⟨n, m, rfl, first, last⟩) fun k hk v gives => ?_
  obtain ⟨n', m', rfl, first', last'⟩ := Line.levelIn_eq_some_iff.mp gives
  exact Script.eq_of_clashes wf hk mem (by simp [Line.clashes]; omega)

end WellFormed

theorem Script.findSome?_commandIn_eq_none {sc : Script} {c : Nat}
    (h : ∀ w, Line.timedCommand c w ∉ sc) : sc.findSome? (Line.commandIn c) = none := by
  refine List.findSome?_eq_none_iff.mpr fun l hl => Option.eq_none_iff_forall_ne_some.mpr ?_
  intro w gives
  cases Line.commandIn_eq_some_iff.mp gives
  exact h w hl

theorem Script.findSome?_levelIn_eq_none {sc : Script} {c : Nat}
    (h : ∀ n m b, Line.timedDout n m b ∈ sc → ¬ (n ≤ c ∧ c ≤ m)) :
    sc.findSome? (Line.levelIn c) = none := by
  refine List.findSome?_eq_none_iff.mpr fun l hl => Option.eq_none_iff_forall_ne_some.mpr ?_
  intro b gives
  obtain ⟨n, m, rfl, range⟩ := Line.levelIn_eq_some_iff.mp gives
  exact h n m b hl range

/-! What the ports and `dout` are in a cycle, from what the lines give there. -/

theorem Script.portIn_of_some {sc : Script} {c : Nat} {w : Cmd}
    (h : sc.findSome? (Line.commandIn c) = some w) :
    sc.portIn c = ⟨decide (Line.timedReset c ∈ sc), true, w⟩ := by
  simp [Script.portIn, h]

theorem Script.portIn_of_none {sc : Script} {c : Nat}
    (h : sc.findSome? (Line.commandIn c) = none) :
    sc.portIn c = ⟨decide (Line.timedReset c ∈ sc), false, 0⟩ := by
  simp [Script.portIn, h]

theorem Script.portIn_rst (sc : Script) (c : Nat) :
    (sc.portIn c).rst = decide (Line.timedReset c ∈ sc) := by
  cases h : sc.findSome? (Line.commandIn c) with
  | none => rw [Script.portIn_of_none h]
  | some w => rw [Script.portIn_of_some h]

theorem Script.levelIn_of_some {sc : Script} {c : Nat} {b : Bool}
    (h : sc.findSome? (Line.levelIn c) = some b) : sc.levelIn c = b := by
  cases c <;> simp [Script.levelIn, h]

theorem Script.levelIn_succ_of_none {sc : Script} {c : Nat}
    (h : sc.findSome? (Line.levelIn (c + 1)) = none) : sc.levelIn (c + 1) = sc.levelIn c := by
  simp [Script.levelIn, h]

/-- R67: "or 0 before the first such line". -/
theorem Script.levelIn_before {sc : Script} {c : Nat}
    (h : ∀ n m b, Line.timedDout n m b ∈ sc → c < n) : sc.levelIn c = false := by
  have none : sc.findSome? (Line.levelIn c) = none :=
    Script.findSome?_levelIn_eq_none fun n m b hl range => absurd (h n m b hl) (by omega)
  induction c with
  | zero => simp [Script.levelIn, none]
  | succ c ih =>
    rw [Script.levelIn_succ_of_none none]
    have earlier n m b (hl : Line.timedDout n m b ∈ sc) : c < n := by
      have := h n m b hl
      omega
    exact ih earlier
      (Script.findSome?_levelIn_eq_none fun n m b hl range => absurd (earlier n m b hl) (by omega))

/-- Settles O7: what the one line for a cycle gives there, and what holds where there is none. -/
theorem scriptPresentsItsLines : Obligations.ScriptPresentsItsLines := by
  intro sc wf c
  refine ⟨fun w mem => ?_, ?_, fun absent => ?_, fun n m b mem first last => ?_,
    fun absent => ?_, Script.levelIn_before⟩
  · rw [Script.portIn_of_some (Script.findSome?_commandIn wf mem)]
    exact ⟨rfl, rfl⟩
  · rw [Script.portIn_rst, decide_eq_true_iff]
  · rw [Script.portIn_of_none (Script.findSome?_commandIn_eq_none absent)]
  · exact Script.levelIn_of_some (Script.findSome?_levelIn wf mem first last)
  · exact Script.levelIn_succ_of_none (Script.findSome?_levelIn_eq_none absent)

theorem Script.portAt_load (sc : Script) {n j : Nat} (s : State) (h : j < n) :
    (sc.load n s).portAt j = sc.portIn (s.cycle + j) := by
  simp [State.portAt, Script.load, h]

theorem Script.doutAt_load (sc : Script) {n j : Nat} (s : State) (h : j < n) :
    (sc.load n s).doutAt j = sc.levelIn (s.cycle + j) := by
  simp [State.doutAt, Script.load, h]

/-- Settles O8: `Script.portAt_load` and `Script.doutAt_load`. -/
theorem loadedScriptIsSeen : Obligations.LoadedScriptIsSeen :=
  fun sc _ _ s h => ⟨sc.portAt_load s h, sc.doutAt_load s h⟩

end Sys2Proof.Machine
end

section
/-! PROOFS. The assembler on comments and letter case (30_encoding.md R62, R66). -/

namespace Sys2Proof.Machine

/-- A line assembles when its words do, and the result depends on nothing else of it. -/
theorem parseLine_eq_ok_iff {l : List Char} {k : Line} :
    parseLine l = .ok k ↔ lineOf (wordsFrom [] (upperCase (stripComment l))) = some k := by
  unfold parseLine
  split <;> simp_all

/-- R66: a comment adds nothing. -/
theorem stripComment_append (l comment : List Char) :
    stripComment (l ++ ';' :: comment) = stripComment l := by
  induction l with
  | nil => rfl
  | cons c l ih =>
    by_cases h : c = ';'
    · simp [stripComment, h]
    · simpa [stripComment, h] using ih

theorem parseLine_printInstr (i : Instr) : parseLine (printInstr i) = .ok (.command (encode i)) := by
  cases i <;> decide

/-- Settles O5: `parseLine_printInstr`, and a comment adds nothing. -/
theorem printedInstructionAssembles : Obligations.PrintedInstructionAssembles := by
  refine ⟨fun i comment => ⟨parseLine_printInstr i, ?_⟩, by decide, by decide, by decide⟩
  rw [parseLine_eq_ok_iff, stripComment_append, ← parseLine_eq_ok_iff, parseLine_printInstr]

/-- Upper case makes no `;`. -/
theorem toUpper_eq_semicolon_iff (c : Char) : c.toUpper = ';' ↔ c = ';' := by
  refine ⟨fun h => ?_, by rintro rfl; rfl⟩
  have notAlpha : c.isAlpha = false := by rw [← Char.isAlpha_toUpper_eq_isAlpha, h]; rfl
  have notLower : ¬ c.isLower := by
    intro lower
    simp [Char.isAlpha, lower] at notAlpha
  rwa [Char.toUpper_eq_of_not_isLower notLower] at h

/-- A comment begins at the same place when upper case undoes the change. -/
theorem stripComment_map {f : Char → Char} (upper : ∀ c, (f c).toUpper = c.toUpper)
    (l : List Char) : stripComment (l.map f) = (stripComment l).map f := by
  have semicolon (c : Char) : f c = ';' ↔ c = ';' := by
    rw [← toUpper_eq_semicolon_iff, upper, toUpper_eq_semicolon_iff]
  have same : (fun c => c != ';') ∘ f = fun c => c != ';' := by
    funext c
    simp [bne, semicolon]
  rw [stripComment, List.takeWhile_map, same, stripComment]

/-- R66: a change of letter case that upper case undoes does not change what a line assembles to. -/
theorem parseLine_map {f : Char → Char} (upper : ∀ c, (f c).toUpper = c.toUpper) {l : List Char}
    {k : Line} (h : parseLine l = .ok k) : parseLine (l.map f) = .ok k := by
  have words : upperCase (stripComment (l.map f)) = upperCase (stripComment l) := by
    simp [stripComment_map upper, upperCase, upper]
  rwa [parseLine_eq_ok_iff, words, ← parseLine_eq_ok_iff]

/-- Settles O6: `parseLine_map` for lower case and for upper case. -/
theorem assemblerIgnoresCase : Obligations.AssemblerIgnoresCase := fun _ _ h =>
  ⟨parseLine_map Char.toUpper_toLower_eq_toUpper h,
    parseLine_map Char.toUpper_toUpper_eq_toUpper h⟩

end Sys2Proof.Machine
end

section
/-! PROOFS. The block under its host (30_encoding.md R67, R68): an edge of the block and its host is an
edge of the block with what the host drives in that cycle, whatever its list of inputs holds for later
cycles. -/

namespace Sys2Proof.Machine

/-- The same state with another list of the host's inputs. -/
def State.withPort (q : List PortIn) (s : State) : State := { s with port := q }

/-- An edge reads of the list of inputs only whether this cycle is a reset and what is accepted in it. -/
theorem Edge.withPort {s t : State} {q : List PortIn} (e : Edge s t)
    (sameRst : (s.withPort q).inRst = s.inRst) (sameAcc : (s.withPort q).accepted = s.accepted) :
    Edge (s.withPort q) (t.withPort q.tail) := by
  cases e with
  | reset rst => exact .reset (sameRst.trans rst)
  | nop acc => exact .nop (sameAcc.trans acc)
  | read i g acc gain => exact .read i g (sameAcc.trans acc) gain
  | powerDown acc => exact .powerDown (sameAcc.trans acc)
  | powerUp acc => exact .powerUp (sameAcc.trans acc)
  | reserved i acc res => exact .reserved i (sameAcc.trans acc) res
  | quiet rst acc st => exact .quiet (sameRst.trans rst) (sameAcc.trans acc) st
  | countHigh rst st inside => exact .countHigh (sameRst.trans rst) st inside
  | endHigh rst st last => exact .endHigh (sameRst.trans rst) st last
  | countLow rst st inside => exact .countLow (sameRst.trans rst) st inside
  | nextPulse rst st last more => exact .nextPulse (sameRst.trans rst) st last more
  | complete rst st last final => exact .complete (sameRst.trans rst) st last final
  | countPower rst st inside => exact .countPower (sameRst.trans rst) st inside
  | endPower rst st last => exact .endPower (sameRst.trans rst) st last

/-- The edge of a state whose ports in this cycle are `p` is the edge of the block driven with `p`. -/
theorem Edge.driving {s t : State} {p : PortIn} (e : Edge s t) (now : s.portAt 0 = p)
    (q : List PortIn) : Edge ((s.withPort q).driving p) (t.withPort q.tail) := by
  subst now
  exact e.withPort (q := s.portAt 0 :: q.tail) rfl rfl

theorem State.accepted_of_quiet {s : State} (now : s.portAt 0 = PortIn.quiet) :
    s.accepted = none := by
  simp [State.accepted, State.inCmdValid, now, PortIn.quiet]

theorem State.inRst_of_quiet {s : State} (now : s.portAt 0 = PortIn.quiet) : s.inRst = false := by
  simp [State.inRst, now, PortIn.quiet]

/-- The edge of the block and its host, from the host's turn and the block's edge. -/
theorem System.step_of_turn {b c : State} {acts rest : List HostAct} {p : PortIn}
    {taken : List Value} (turn : hostTurn b acts = ⟨p, rest, taken⟩) (e : Edge (b.driving p) c)
    (v : List Value) : System.step ⟨b, acts, v⟩ = some ⟨c, rest, v ++ taken⟩ := by
  simp [System.step, turn, e.step_eq]

theorem System.run_succ_of_step {y z : System} (h : y.step = some z) (n : Nat) :
    System.run (n + 1) y = System.run n z := by
  simp [System.run, h]

theorem System.run_one {y z : System} (h : y.step = some z) : System.run 1 y = some z :=
  System.run_succ_of_step h 0

/-- A longer run begins with a shorter one. -/
theorem System.run_add {m n : Nat} {y z : System} (h : System.run m y = some z) :
    System.run (m + n) y = System.run n z := by
  induction m generalizing y with
  | zero => cases h; rw [Nat.zero_add]
  | succ m ih =>
    rw [Nat.add_right_comm]
    cases hs : y.step with
    | some u =>
      rw [System.run_succ_of_step hs] at h ⊢
      exact ih h
    | none => simp [System.run, hs] at h

/-- The host waits in a cycle of `b`: it drives nothing and does none of its acts. -/
def Waits (b : State) (acts : List HostAct) : Prop := hostTurn b acts = ⟨PortIn.quiet, acts, []⟩

theorem waits_nil (b : State) : Waits b [] := rfl

theorem waits_waitCmdReady {b : State} (busy : b.st ≠ .idle) (r : List HostAct) :
    Waits b (.waitCmdReady :: r) := by
  simp [Waits, hostTurn, State.cmdReady, busy]

theorem waits_takeFrame {b : State} (done : b.done = false) (r : List HostAct) :
    Waits b (.takeFrame :: r) := by
  simp [Waits, hostTurn, done]

/-- In a cycle in which the host waits, only the block moves on. -/
theorem System.step_of_waits {b c : State} {acts : List HostAct} (waits : Waits b acts)
    (e : Edge (b.driving PortIn.quiet) c) (v : List Value) :
    System.step ⟨b, acts, v⟩ = some ⟨c, acts, v⟩ := by
  rw [System.step_of_turn waits e, List.append_nil]

/-- While the host waits, the block runs as it does alone on quiet ports. -/
theorem System.run_of_waits {n : Nat} {s t : State} {acts : List HostAct} (h : Machine.run n s = .next t)
    (quiet : ∀ m, m < n → s.portAt m = PortIn.quiet)
    (waits : ∀ m, m < n → ∀ u, Machine.run m s = .next u → ∀ q, Waits (u.withPort q) acts)
    (q : List PortIn) (v : List Value) :
    System.run n ⟨s.withPort q, acts, v⟩ = some ⟨t.withPort (q.drop n), acts, v⟩ := by
  induction n generalizing s q with
  | zero => cases h; rfl
  | succ n ih =>
    cases hs : Machine.step s with
    | next u =>
      rw [Machine.run_succ_of_step hs] at h
      obtain ⟨-, port, -⟩ := step_inputs hs
      rw [System.run_succ_of_step (System.step_of_waits (waits 0 n.succ_pos s rfl q)
        ((Edge.of_step hs).driving (quiet 0 n.succ_pos) q) v)]
      rw [ih h (fun m hm => (State.portAt_of_tail port m).trans (quiet (m + 1) (by omega)))
        (fun m hm w hw => waits (m + 1) (by omega) w ((Machine.run_succ_of_step hs m).trans hw)),
        List.drop_tail]
    | fault r => exact nomatch r
    | refused r => simp [Machine.run, hs] at h

end Sys2Proof.Machine
end

section
/-! PROOFS. RESETPULSE on an idle block (30_encoding.md R68, 43_power.md R120 to R122). -/

namespace Sys2Proof.Machine

/-- R122: the block stays in a power hold as long as its timer says, whatever the host waits for. -/
theorem System.run_hold {acts : List HostAct} (waits : ∀ b : State, b.st = .pwr → Waits b acts)
    (v : List Value) (k : Nat) : ∀ b : State, b.st = .pwr → b.tmr + (k + 1) = b.params.tPwr →
    ∃ c, System.run (k + 1) ⟨b, acts, v⟩ = some ⟨c, acts, v⟩ ∧ c.st = .idle ∧ c.sck = b.sck ∧
      c.frame = b.frame ∧ c.params = b.params := by
  induction k with
  | zero =>
    intro b st last
    have e : Edge (b.driving PortIn.quiet) (b.driving PortIn.quiet).endPower :=
      .endPower rfl st (by simp; omega)
    exact ⟨_, System.run_one (System.step_of_waits (waits b st) e v), rfl, rfl, rfl, rfl⟩
  | succ k ih =>
    intro b st inside
    have e : Edge (b.driving PortIn.quiet) (b.driving PortIn.quiet).countTmr :=
      .countPower rfl st (by simp; omega)
    obtain ⟨c, h, idle, sck, frame, params⟩ :=
      ih (b.driving PortIn.quiet).countTmr st (by simp; omega)
    exact ⟨c, (System.run_succ_of_step (System.step_of_waits (waits b st) e v) _).trans h,
      idle, sck, frame, params⟩

/-- An idle block accepts the word that the host drives. -/
theorem State.accepted_driving {b : State} (st : b.st = .idle) (w : Cmd) :
    (b.driving ⟨false, true, w⟩).accepted = some (decode w) :=
  State.accepted_eq_some.mpr ⟨rfl, rfl, st, rfl⟩

/-- R122: the host presents a power command to an idle block and waits until its hold ends. -/
theorem System.run_power {b : State} {acts rest : List HostAct} {w : Cmd} {level : Bool}
    (st : b.st = .idle) (turn : hostTurn b acts = ⟨⟨false, true, w⟩, rest, []⟩)
    (power : ∀ s : State, s.accepted = some (decode w) → Edge s (s.startPower level))
    (waits : ∀ c : State, c.st = .pwr → Waits c rest) :
    ∃ c, System.run (1 + b.params.tPwr) ⟨b, acts, []⟩ = some ⟨c, rest, []⟩ ∧ c.st = .idle ∧
      c.sck = level ∧ c.frame = b.frame ∧ c.params = b.params := by
  have positive := b.params.tPwr_pos
  have e := power (b.driving ⟨false, true, w⟩) (State.accepted_driving st w)
  have hold := System.run_hold waits [] (b.params.tPwr - 1)
    ((b.driving ⟨false, true, w⟩).startPower level) rfl (by simp; omega)
  rw [Nat.sub_add_cancel positive] at hold
  obtain ⟨c, h, after⟩ := hold
  exact ⟨c, (System.run_add (System.run_one (System.step_of_turn turn e []))).trans h, after⟩

/-- Settles O53: `System.run_power` for POWER_DOWN, and again for POWER_UP in the first idle cycle. -/
theorem resetPulseTakesBothCommands : Obligations.ResetPulseTakesBothCommands := by
  intro b st
  have accepted := System.run_one
    (System.step_of_turn (acts := resetPulse) rfl (.powerDown (State.accepted_driving st _)) [])
  obtain ⟨c, down, idle, sck, frame, params⟩ := System.run_power (acts := resetPulse) st rfl
    (fun _ => .powerDown) (fun _ pwr => waits_waitCmdReady (by simp [pwr]) _)
  have turn : hostTurn c [.waitCmdReady, .present (encode .powerUp)] =
      ⟨⟨false, true, encode .powerUp⟩, [], []⟩ := by
    simp [hostTurn, State.cmdReady, idle]
  obtain ⟨d, up, idle', sck', frame', -⟩ := System.run_power idle turn (fun _ => .powerUp)
    (fun d _ => waits_nil d)
  refine ⟨⟨_, accepted, rfl, rfl⟩, ⟨_, down, idle, sck, congrArg HostTurn.port turn⟩,
    ⟨⟨d, [], []⟩, ?_, idle', sck', rfl, frame'.trans frame⟩⟩
  rw [params] at up
  rw [show 2 + 2 * b.params.tPwr = 1 + b.params.tPwr + (1 + b.params.tPwr) by omega,
    System.run_add down, up]

end Sys2Proof.Machine
end

section
/-! PROOFS. The completion of a READ (41_read.md R92, R95, R97), and what stays as it is until then. -/

namespace Sys2Proof.Machine

/-- R97: cycle `L(g) - 1` of a READ is the last cycle of the low half of pulse `24 + g`. -/
theorem ReadCycle.final {s t : State} {g : GainCode} {m : Nat} (c : ReadCycle s g m t)
    (final : m + 1 = 2 * s.params.tHalf * (25 + g.toNat)) :
    t.st = .lo ∧ ¬ t.tmr < t.params.tHalf - 1 ∧ t.cnt.toNat = 24 + t.g.toNat := by
  have timer := c.timer
  have whole : t.halvesDone * s.params.tHalf + (t.tmr + 1) = 2 * (25 + g.toNat) * s.params.tHalf := by
    rw [Nat.mul_right_comm, ← final, c.elapsed, Nat.add_assoc]
  have halves : t.halvesDone + 1 = 2 * (25 + g.toNat) := by
    apply Nat.le_antisymm
    · exact Nat.lt_of_mul_lt_mul_right (a := s.params.tHalf) (by rw [← whole]; omega)
    · exact Nat.le_of_mul_le_mul_right (c := s.params.tHalf) (by rw [Nat.succ_mul t.halvesDone]; omega)
        s.params.tHalf_pos
  rw [← halves, Nat.succ_mul] at whole
  rw [c.params, c.gain]
  obtain st | st := c.reading
  · rw [State.halvesDone_of_hi st] at halves
    omega
  · rw [State.halvesDone_of_lo st] at halves
    exact ⟨st, by omega, by omega⟩

/-- R95, R97: a READ without a reset completes at the edge that ends its cycle `L(g) - 1`, with all
samples in the shift register. -/
theorem exists_completion {s : State} {g : GainCode} (h : s.startsRead g)
    (noReset : s.noReset 1 (2 * s.params.tHalf * (25 + g.toNat))) :
    ∃ t : State, run (1 + 2 * s.params.tHalf * (25 + g.toNat)) s = .next t.complete ∧
      HoldsSamples s.sampleAt 24 t.sr := by
  obtain ⟨m, hm⟩ : ∃ m, m + 1 = 2 * s.params.tHalf * (25 + g.toNat) :=
    Nat.exists_add_one_eq.mpr (Nat.mul_pos (Nat.mul_pos two_pos s.params.tHalf_pos) (by omega))
  obtain ⟨t, c⟩ := exists_readCycle h noReset m (by omega)
  obtain ⟨st, last, cnt⟩ := c.final hm
  have rst : t.inRst = false := by
    rw [State.inRst, run_portAt c.reached]
    exact noReset m (by omega)
  have taken : t.samples = 24 := by rw [State.samples_of_lo st]; omega
  exact ⟨t, hm ▸ c.reached_next (.complete rst st last (by omega)), taken ▸ c.samples⟩

/-- R29: no edge into a busy cycle sets `done`. -/
theorem done_of_busy {s t : State} (h : step s = .next t) (busy : t.st ≠ .idle) :
    t.done = false := by
  cases Edge.of_step h with
  | complete => exact absurd rfl busy
  | _ => rfl

theorem run_done_of_busy {n : Nat} {s t : State} (h : run (1 + n) s = .next t)
    (busy : t.st ≠ .idle) : t.done = false := by
  rw [Nat.add_comm] at h
  induction n generalizing s with
  | zero => exact done_of_busy ((run_one s).symm.trans h) busy
  | succ n ih =>
    cases hs : step s with
    | next u => exact ih ((run_succ_of_step hs _).symm.trans h)
    | fault r => exact nomatch r
    | refused r => simp [run, hs] at h

/-- R30: on quiet ports no edge changes `nrdy`. -/
theorem run_nrdy_of_quiet {n : Nat} {s t : State} (h : run n s = .next t)
    (quiet : ∀ m, m < n → s.portAt m = PortIn.quiet) : t.nrdy = s.nrdy := by
  induction n generalizing s with
  | zero => cases h; rfl
  | succ n ih =>
    cases hs : step s with
    | next u =>
      obtain ⟨-, port, -⟩ := step_inputs hs
      have now := quiet 0 n.succ_pos
      obtain ⟨-, nrdy, -⟩ := step_flags hs (State.inRst_of_quiet now)
      rw [ih ((run_succ_of_step hs _).symm.trans h)
        fun m hm => (State.portAt_of_tail port m).trans (quiet (m + 1) (by omega)), nrdy]
      simp [State.accepted_of_quiet now]
    | fault r => exact nomatch r
    | refused r => simp [run, hs] at h

end Sys2Proof.Machine
end

section
/-! PROOFS. READFRAME from a ready cycle (30_encoding.md R68). -/

namespace Sys2Proof.Machine

/-- R90: the word of `READ g`. -/
theorem gainOf_decode_readWord {g : GainCode} (gain : g.toNat ≤ 2) :
    gainOf (decode (readWord g)) = some g :=
  gainOf_decode_eq_some_iff.mpr ⟨rfl, by rintro rfl; exact absurd gain (by decide)⟩

/-- The block as READFRAME's READ finds it, with the ports quiet from then on. -/
def State.presentingRead (b : State) (g : GainCode) : State :=
  b.withPort [⟨false, true, readWord g⟩]

theorem State.presentingRead_noReset (b : State) (g : GainCode) (n : Nat) :
    (b.presentingRead g).noReset 1 n := by
  intro j _
  rw [Nat.add_comm]
  rfl

theorem State.nrdyAfterRead_of_ready {s : State} (ready : s.ready = true) :
    s.nrdyAfterRead = s.nrdy := by
  obtain ⟨dout, -, sck⟩ := State.ready_iff.mp ready
  simp [State.nrdyAfterRead, State.readyNow, dout, sck]

section ReadFrame

variable {b : State} {g : GainCode}

theorem State.accepted_presentingRead (ready : b.ready = true) :
    (b.presentingRead g).accepted = some (decode (readWord g)) := by
  obtain ⟨-, st, -⟩ := State.ready_iff.mp ready
  exact State.accepted_eq_some.mpr ⟨rfl, rfl, st, rfl⟩

variable (gain : g.toNat ≤ 2) (ready : b.ready = true)

include gain ready

theorem State.startsRead_presentingRead : (b.presentingRead g).startsRead g :=
  State.startsRead_iff.mpr
    ⟨_, State.accepted_presentingRead ready, gainOf_decode_readWord gain⟩

theorem Edge.presentingRead :
    Edge (b.presentingRead g) ((b.presentingRead g).startRead g) :=
  .read _ g (State.accepted_presentingRead ready) (gainOf_decode_readWord gain)

/-- Cycle `m` of the READ. -/
theorem run_presentingRead (m : Nat) :
    run (1 + m) (b.presentingRead g) = run m ((b.presentingRead g).startRead g) :=
  run_add ((run_one _).trans (Edge.presentingRead gain ready).step_eq)

theorem done_of_run_startRead_presentingRead {m : Nat} {u : State}
    (more : m < 2 * b.params.tHalf * (25 + g.toNat))
    (reached : run m ((b.presentingRead g).startRead g) = .next u) : u.done = false := by
  rw [← run_presentingRead gain ready] at reached
  obtain ⟨t, c⟩ := exists_readCycle (State.startsRead_presentingRead gain ready)
    (b.presentingRead_noReset g _) m more
  cases reached.symm.trans c.reached
  obtain st | st := c.reading <;> exact run_done_of_busy reached (by simp [st])

theorem run_startRead_presentingRead : ∃ t : State,
    run (2 * b.params.tHalf * (25 + g.toNat)) ((b.presentingRead g).startRead g) =
      .next t.complete ∧
    t.nrdy = b.nrdy ∧ HoldsSamples b.sampleAt 24 t.sr := by
  obtain ⟨t, complete, samples⟩ := exists_completion (State.startsRead_presentingRead gain ready)
    (b.presentingRead_noReset g _)
  have later := (run_presentingRead gain ready _).symm.trans complete
  have nrdy := run_nrdy_of_quiet later fun _ _ => rfl
  exact ⟨t, later, nrdy.trans (State.nrdyAfterRead_of_ready ready), samples⟩

/-- R68: the first edge of READFRAME is the acceptance edge of its READ. -/
theorem System.step_readFrame (v : List Value) :
    System.step ⟨b, readFrame g, v⟩ =
      some ⟨((b.presentingRead g).startRead g).withPort b.port.tail, [.takeFrame], v⟩ := by
  have turn : hostTurn b (readFrame g) = ⟨⟨false, true, readWord g⟩, [.takeFrame], []⟩ := by
    simp [readFrame, hostTurn, ready]
  rw [System.step_of_turn turn ((Edge.presentingRead gain ready).driving rfl b.port),
    List.append_nil]

/-- R68: then the host waits for `L(g)` cycles, and after them the READ is complete. -/
theorem System.run_readFrame : ∃ (t : State) (q : List PortIn),
    System.run (1 + 2 * b.params.tHalf * (25 + g.toNat)) ⟨b, readFrame g, []⟩ =
      some ⟨t.complete.withPort q, [.takeFrame], []⟩ ∧
    t.nrdy = b.nrdy ∧ HoldsSamples b.sampleAt 24 t.sr := by
  obtain ⟨t, complete, kept⟩ := run_startRead_presentingRead gain ready
  have waiting := System.run_of_waits complete (acts := [.takeFrame]) (fun _ _ => rfl)
    (fun m more u reached _ =>
      have done : u.done = false := done_of_run_startRead_presentingRead gain ready more reached
      waits_takeFrame done []) b.port.tail []
  exact ⟨t, _,
    (System.run_add (System.run_one (System.step_readFrame gain ready []))).trans waiting, kept⟩

end ReadFrame

/-- Settles O52: `System.run_readFrame`, and in the `done` cycle the host takes `value`. -/
theorem readFrameTakesTheSamples : Obligations.ReadFrameTakesTheSamples := by
  intro b g gain ready
  obtain ⟨t, q, h, nrdy, samples⟩ := System.run_readFrame gain ready
  have take : System.step ⟨t.complete.withPort q, [.takeFrame], []⟩ =
      some ⟨((t.complete.withPort q).driving PortIn.quiet).tick, [], [sext24to32 t.sr]⟩ :=
    System.step_of_turn rfl (.quiet rfl (State.accepted_of_quiet rfl) rfl) []
  have ends := (System.run_add h).trans (System.run_one take)
  rw [Nat.add_right_comm] at ends
  refine ⟨_, t.sr, ends, rfl, rfl, nrdy, fun i hi => ?_⟩
  rw [samples, show 24 - 1 - (23 - i) = i by omega]
  simp [State.sampleAt, show 23 - i < 24 by omega]

end Sys2Proof.Machine
end

section
/-! PROOFS. One step is the whole next-state function of 40_command_cycle.md R87: some edge is always taken,
and each edge is the branch of R87 that its guards select. -/

namespace Sys2Proof.Machine

/-- R80: from every state the block takes an edge. -/
theorem exists_edge (s : State) : ∃ t, Edge s t := by
  cases rst : s.inRst with
  | true => exact ⟨_, .reset rst⟩
  | false =>
    cases acc : s.accepted with
    | none => exact ⟨_, .of_phaseEdge rst acc⟩
    | some i =>
      obtain ⟨-, e⟩ | ⟨_, -, e⟩ | ⟨-, e⟩ | ⟨-, e⟩ | ⟨-, e⟩ := exec_cases i s <;>
        exact ⟨_, .of_exec acc e⟩

/-! The words that R87 names, and the decoder. -/

/-- R62, R82: the word of the accepted command. -/
theorem State.inCmd_of_accepted {s : State} {i : Instr} (acc : s.accepted = some i) :
    s.inCmd = encode i := by
  obtain ⟨-, -, -, rfl⟩ := State.accepted_eq_some.mp acc
  exact (encode_decode s.inCmd).symm

/-- R62, R63: the words of the READs in the order in which R87 tests them. -/
theorem readWords_of_gainOf_decode : ∀ {w : Cmd} {g : GainCode}, gainOf (decode w) = some g →
    w ≠ 0b0000#4 ∧ (w = 0b0100#4 ∨ w = 0b0101#4 ∨ w = 0b0110#4) := by decide

/-- R64: a reserved word is none of those that R87 names. -/
theorem ne_of_reserved_decode : ∀ {w : Cmd}, (decode w).reserved = true →
    w ≠ 0b0000#4 ∧ ¬ (w = 0b0100#4 ∨ w = 0b0101#4 ∨ w = 0b0110#4) ∧ w ≠ 0b1000#4 ∧
      w ≠ 0b1100#4 := by decide

/-! Acceptance and `cmd_valid` (R82). -/

theorem State.accepted_of_not_valid {s : State} (h : s.inCmdValid = false) : s.accepted = none := by
  simp [State.accepted, h]

theorem State.inCmdValid_of_none {s : State} (rst : s.inRst = false) (st : s.st = .idle)
    (acc : s.accepted = none) : s.inCmdValid = false := by
  simpa [State.accepted, rst, st] using acc

/-- R87: an edge is the branch of the whole step function that its guards select. -/
theorem Edge.block_eq {s t : State} (e : Edge s t) :
    t.block = wholeStep s.params s.inputs s.block := by
  cases e with
  | reset rst => simp [wholeStep, State.inputs, State.block, resetState, rst]
  | nop acc | powerDown acc | powerUp acc =>
    obtain ⟨rst, valid, st, -⟩ := State.accepted_eq_some.mp acc
    have word := State.inCmd_of_accepted acc
    simp [wholeStep, State.inputs, State.block, rst, valid, st, word, encode]
  | read i g acc gain =>
    obtain ⟨rst, valid, st, rfl⟩ := State.accepted_eq_some.mp acc
    obtain ⟨notNop, read⟩ := readWords_of_gainOf_decode gain
    have arg : s.inCmd.extractLsb' 0 2 = g := argField_of_gainOf_decode gain
    simp [wholeStep, State.inputs, State.block, rst, valid, st, notNop, read, arg,
      State.nrdyAfterRead, State.readyNow]
  | reserved i acc res =>
    obtain ⟨rst, valid, st, rfl⟩ := State.accepted_eq_some.mp acc
    obtain ⟨notNop, notRead, notDown, notUp⟩ := ne_of_reserved_decode res
    simp [wholeStep, State.inputs, State.block, rst, valid, st, notNop, notRead, notDown, notUp]
  | quiet rst acc st =>
    have notValid := State.inCmdValid_of_none rst st acc
    simp [wholeStep, State.inputs, State.block, rst, st, notValid]
  | countHigh rst st timer | countLow rst st timer | countPower rst st timer
  | endPower rst st timer =>
    simp [wholeStep, State.inputs, State.block, rst, st, timer]
  | endHigh rst st last =>
    by_cases data : s.cnt.toNat < 24 <;>
      simp [wholeStep, State.inputs, State.block, rst, st, last, data, shiftIn]
  | nextPulse rst st last cnt | complete rst st last cnt =>
    simp [wholeStep, State.inputs, State.block, rst, st, last, cnt]

/-- Settles O17: `exists_edge` and `Edge.block_eq`. -/
theorem stepIsTheWholeStepFunction : Obligations.StepIsTheWholeStepFunction := by
  intro s
  obtain ⟨t, e⟩ := exists_edge s
  exact ⟨t, e.step_eq, e.block_eq⟩

end Sys2Proof.Machine
end

section
/-! PROOFS. Acceptance and dropping (40_command_cycle.md R82 to R85). -/

namespace Sys2Proof.Machine

/-- Settles O12: `State.accepted_eq_some`, with the phase as the port `cmd_ready` shows it, and
`step_of_accepted`. -/
theorem acceptedCommandIsExecuted : Obligations.AcceptedCommandIsExecuted := by
  refine ⟨fun s i => ?_, fun s i => ?_, fun s i => step_of_accepted⟩
  · rw [State.accepted_eq_some, eq_comm (a := i)]
  · have ready : s.outputs.cmdReady = true ↔ s.st = .idle := decide_eq_true_iff
    rw [State.accepted_eq_some, ready, eq_comm (a := i)]

/-- Settles O15: the quiet edge. -/
theorem idleEdgeWithoutCommand : Obligations.IdleEdgeWithoutCommand := fun s rst st notValid =>
  ⟨s.tick, (Edge.quiet rst (State.accepted_of_not_valid notValid) st).step_eq, rfl⟩

/-- R83: at an edge that accepts no command, what is presented has no influence but for `rst`. -/
theorem step_driving_of_none {s : State} {p q : PortIn} (rst : p.rst = q.rst)
    (dropped : (s.driving p).accepted = none) (dropped' : (s.driving q).accepted = none) :
    step (s.driving p) = step (s.driving q) := by
  cases now : q.rst with
  | true =>
    rw [step_of_rst (s := s.driving p) (rst.trans now), step_of_rst (s := s.driving q) now]
    rfl
  | false =>
    rw [step_of_none (s := s.driving p) (rst.trans now) dropped,
      step_of_none (s := s.driving q) now dropped']
    rfl

/-- Settles O14: a busy block accepts nothing, nor does one in reset or one with `cmd_valid = 0`. -/
theorem unacceptedCommandChangesNothing : Obligations.UnacceptedCommandChangesNothing := by
  constructor
  · intro s v c d closed
    have dropped (p : PortIn) (rst : p.rst = s.inRst) : (s.driving p).accepted = none := by
      obtain busy | reset := closed
      · exact State.accepted_of_busy busy
      · exact State.accepted_of_rst (rst.trans reset)
    exact step_driving_of_none rfl (dropped _ rfl) (dropped _ rfl)
  · intro s c d
    exact step_driving_of_none rfl (State.accepted_of_not_valid rfl)
      (State.accepted_of_not_valid rfl)

end Sys2Proof.Machine
end

section
/-! PROOFS. The completion pulse (10_state.md R29, 40_command_cycle.md R84). -/

namespace Sys2Proof.Machine

/-- R84: the completion edge sets `done`, every other edge clears it. -/
theorem step_done {s t : State} (h : step s = .next t) : t.done = s.completes := by
  cases Edge.of_step h with
  | reset rst => simp [State.completes, rst]
  | complete rst st last final => exact (State.completes_iff.mpr ⟨rst, st, last, final⟩).symm
  | nextPulse _ _ _ cnt | countLow _ _ cnt => simp [State.completes, cnt]
  | nop acc | read _ _ acc | powerDown acc | powerUp acc | reserved _ acc =>
    simp [State.completes, State.st_of_accepted acc]
  | quiet _ _ st | countHigh _ st | endHigh _ st | countPower _ st | endPower _ st =>
    simp [State.completes, st]

/-- Settles O29: `step_done`, and in a state with `done = 1` the block is idle (R32), so that no READ is
there to complete. -/
theorem doneIsOneCyclePulse : Obligations.DoneIsOneCyclePulse := by
  refine ⟨fun s t h => by rw [step_done h], fun s t inv done h => ?_⟩
  obtain ⟨st, -, -⟩ := inv.done_idle done
  rw [step_done h, State.completes_of_st_ne_lo (by simp [st])]

end Sys2Proof.Machine
end

section
/-! PROOFS. Bounded completion (40_command_cycle.md R89): how many edges a busy block is away from IDLE,
counted down by every edge without a reset. -/

namespace Sys2Proof.Machine

/-- The edges until a phase of `len` cycles ends: at least one, also with the timer beyond the phase. -/
def State.timerLeft (s : State) (len : Nat) : Nat := len - min s.tmr (len - 1)

theorem State.timerLeft_of_zero {s : State} (tmr : s.tmr = 0) (len : Nat) :
    s.timerLeft len = len := by
  simp [State.timerLeft, tmr]

theorem State.timerLeft_countTmr {s : State} {len : Nat} (inside : s.tmr < len - 1) :
    s.countTmr.timerLeft len + 1 = s.timerLeft len := by
  rw [State.timerLeft, State.timerLeft, State.countTmr_tmr]
  omega

theorem State.timerLeft_of_last {s : State} {len : Nat} (pos : 1 ≤ len)
    (last : ¬ s.tmr < len - 1) : s.timerLeft len = 1 := by
  rw [State.timerLeft]
  omega

/-- The pulses of a READ after the one in flight. -/
def State.pulsesLeft (s : State) : Nat := 24 + s.g.toNat - s.cnt.toNat

/-- R89: the edges until the block is idle, if no reset ends them. -/
def State.edgesLeft (s : State) : Nat :=
  match s.st with
  | .idle => 0
  | .hi => s.timerLeft s.params.tHalf + s.params.tHalf + 2 * s.params.tHalf * s.pulsesLeft
  | .lo => s.timerLeft s.params.tHalf + 2 * s.params.tHalf * s.pulsesLeft
  | .pwr => s.timerLeft s.params.tPwr

theorem State.edgesLeft_of_idle {s : State} (st : s.st = .idle) : s.edgesLeft = 0 := by
  simp [State.edgesLeft, st]

theorem State.edgesLeft_of_hi {s : State} (st : s.st = .hi) : s.edgesLeft =
    s.timerLeft s.params.tHalf + s.params.tHalf + 2 * s.params.tHalf * s.pulsesLeft := by
  simp [State.edgesLeft, st]

theorem State.edgesLeft_of_lo {s : State} (st : s.st = .lo) : s.edgesLeft =
    s.timerLeft s.params.tHalf + 2 * s.params.tHalf * s.pulsesLeft := by
  simp [State.edgesLeft, st]

theorem State.edgesLeft_of_pwr {s : State} (st : s.st = .pwr) :
    s.edgesLeft = s.timerLeft s.params.tPwr := by
  simp [State.edgesLeft, st]

theorem State.edgesLeft_hiEdge {s : State} (st : s.st = .hi) :
    s.hiEdge.edgesLeft + 1 = s.edgesLeft := by
  rw [State.edgesLeft_of_hi st]
  obtain ⟨inside, e⟩ | ⟨last, e⟩ := s.hiEdge_cases <;> rw [e]
  · rw [State.edgesLeft_of_hi (s := s.countTmr) st, ← State.timerLeft_countTmr inside]
    simp only [State.pulsesLeft, State.countTmr_params, State.countTmr_g, State.countTmr_cnt]
    omega
  · rw [State.edgesLeft_of_lo s.endHigh_st, State.timerLeft_of_zero s.endHigh_tmr,
      State.timerLeft_of_last s.params.tHalf_pos last]
    simp only [State.pulsesLeft, State.endHigh_params, State.endHigh_g, State.endHigh_cnt]
    omega

theorem State.edgesLeft_loEdge {s : State} (st : s.st = .lo) :
    s.loEdge.edgesLeft + 1 = s.edgesLeft := by
  rw [State.edgesLeft_of_lo st]
  obtain ⟨inside, e⟩ | ⟨last, more, e⟩ | ⟨last, final, e⟩ := s.loEdge_cases <;> rw [e]
  · rw [State.edgesLeft_of_lo (s := s.countTmr) st, ← State.timerLeft_countTmr inside]
    simp only [State.pulsesLeft, State.countTmr_params, State.countTmr_g, State.countTmr_cnt]
    omega
  · have pulses : s.pulsesLeft = s.nextPulse.pulsesLeft + 1 := by
      rw [State.pulsesLeft, State.pulsesLeft, State.nextPulse_cnt_toNat more, State.nextPulse_g]
      omega
    rw [State.edgesLeft_of_hi s.nextPulse_st, State.timerLeft_of_zero s.nextPulse_tmr,
      State.timerLeft_of_last s.params.tHalf_pos last, pulses, Nat.mul_add_one,
      State.nextPulse_params]
    omega
  · have pulses : s.pulsesLeft = 0 := by rw [State.pulsesLeft]; omega
    rw [State.edgesLeft_of_idle s.complete_st, State.timerLeft_of_last s.params.tHalf_pos last,
      pulses, Nat.mul_zero]

theorem State.edgesLeft_pwrEdge {s : State} (st : s.st = .pwr) :
    s.pwrEdge.edgesLeft + 1 = s.edgesLeft := by
  rw [State.edgesLeft_of_pwr st]
  obtain ⟨inside, e⟩ | ⟨last, e⟩ := s.pwrEdge_cases <;> rw [e]
  · rw [State.edgesLeft_of_pwr (s := s.countTmr) st, State.countTmr_params,
      State.timerLeft_countTmr inside]
  · rw [State.edgesLeft_of_idle s.endPower_st, State.timerLeft_of_last s.params.tPwr_pos last]

/-- R89: every phase edge of a busy block is one edge less to go, whatever the inputs. -/
theorem State.edgesLeft_phaseEdge {s : State} (busy : s.st ≠ .idle) :
    s.phaseEdge.edgesLeft + 1 = s.edgesLeft := by
  obtain ⟨st, e⟩ | ⟨st, e⟩ | ⟨st, e⟩ | ⟨st, e⟩ := s.phaseEdge_cases
  · exact absurd st busy
  · rw [e, State.edgesLeft_hiEdge st]
  · rw [e, State.edgesLeft_loEdge st]
  · rw [e, State.edgesLeft_pwrEdge st]

/-- Without a reset the block is idle after exactly `edgesLeft` edges. -/
theorem exists_idle_run {n : Nat} {s : State} (left : s.edgesLeft = n) (noReset : s.noReset 0 n) :
    ∃ t, run n s = .next t ∧ t.st = .idle := by
  induction n generalizing s with
  | zero =>
    refine ⟨s, rfl, ?_⟩
    by_contra busy
    have := State.edgesLeft_phaseEdge busy
    omega
  | succ n ih =>
    have busy : s.st ≠ .idle := fun st => by simp [State.edgesLeft_of_idle st] at left
    have h := step_of_busy (noReset 0 n.succ_pos) busy
    obtain ⟨-, port, -⟩ := step_inputs h
    rw [run_succ_of_step h]
    refine ih (Nat.succ.inj ((State.edgesLeft_phaseEdge busy).trans left)) fun j more => ?_
    rw [Nat.zero_add, State.portAt_of_tail port, ← Nat.zero_add (j + 1)]
    exact noReset (j + 1) (by omega)

/-- R89: the two bounds. -/
theorem State.edgesLeft_le {s : State} (busy : s.st ≠ .idle)
    (pulse : s.reading → s.cnt.toNat ≤ 24 + s.g.toNat) :
    s.edgesLeft ≤ if s.st = .pwr then s.params.tPwr
      else 2 * s.params.tHalf * (25 + s.g.toNat - s.cnt.toNat) := by
  have timer (len : Nat) : s.timerLeft len ≤ len := Nat.sub_le ..
  have pulses (reading : s.reading) : 25 + s.g.toNat - s.cnt.toNat = s.pulsesLeft + 1 := by
    have := pulse reading
    rw [State.pulsesLeft]
    omega
  have half := timer s.params.tHalf
  cases st : s.st with
  | idle => exact absurd st busy
  | hi =>
    rw [State.edgesLeft_of_hi st, if_neg (by decide), pulses (.inl st), Nat.mul_add_one]
    omega
  | lo =>
    rw [State.edgesLeft_of_lo st, if_neg (by decide), pulses (.inr st), Nat.mul_add_one]
    omega
  | pwr =>
    rw [State.edgesLeft_of_pwr st, if_pos rfl]
    exact timer _

/-- Settles O48: `exists_idle_run` and `State.edgesLeft_le`. -/
theorem busyBlockReachesIdle : Obligations.BusyBlockReachesIdle := by
  intro s n busy pulse bound noReset
  have within : s.edgesLeft ≤ n := bound ▸ s.edgesLeft_le busy pulse
  obtain ⟨t, h, idle⟩ :=
    exists_idle_run rfl (State.noReset_mono noReset le_rfl (Nat.add_le_add_left within 0))
  exact ⟨s.edgesLeft, t, within, h, idle⟩

end Sys2Proof.Machine
end

section
/-! PROOFS. The edges of a READ, one at a time (41_read.md R90 to R92). -/

namespace Sys2Proof.Machine

/-- R63: the rows of the READs. -/
theorem gainOf_of_mem {i : Instr} {g : GainCode}
    (row : (i, g) ∈ [(Instr.read0, 0), (.read1, 1), (.read2, 2)]) : gainOf i = some g := by
  simp only [List.mem_cons, Prod.mk.injEq, List.not_mem_nil, or_false] at row
  obtain ⟨rfl, rfl⟩ | ⟨rfl, rfl⟩ | ⟨rfl, rfl⟩ := row <;> rfl

/-- Settles O19: the edge is `State.startRead` with the gain code of the accepted word. -/
theorem readAcceptanceEdge : Obligations.ReadAcceptanceEdge := by
  intro i g row s acc
  have gain := gainOf_of_mem row
  obtain ⟨-, -, -, rfl⟩ := State.accepted_eq_some.mp acc
  exact ⟨(argField_of_gainOf_decode gain).symm, _, exec_of_gainOf gain s, rfl⟩

/-- Settles O22: the two edges of a high half, the second with and without a sample. -/
theorem highHalfEdge : Obligations.HighHalfEdge := by
  intro s rst st
  by_cases inside : s.tmr < s.params.tHalf - 1
  · exact ⟨_, (Edge.countHigh rst st inside).step_eq, fun _ => rfl, absurd inside, absurd inside⟩
  · refine ⟨_, (Edge.endHigh rst st inside).step_eq, fun h => absurd h inside, fun _ data => ?_,
      fun _ gain => ?_⟩
    · simp [State.block, data, shiftIn]
    · simp [State.block, gain]

/-- Settles O23: the three edges of a low half; the next pulse's index does not wrap. -/
theorem lowHalfEdge : Obligations.LowHalfEdge := by
  intro s rst st
  by_cases inside : s.tmr < s.params.tHalf - 1
  · exact ⟨_, (Edge.countLow rst st inside).step_eq, fun _ => rfl, absurd inside, absurd inside⟩
  · by_cases more : s.cnt.toNat < 24 + s.g.toNat
    · exact ⟨_, (Edge.nextPulse rst st inside more).step_eq, fun h => absurd h inside,
        fun _ _ => ⟨_, State.nextPulse_cnt_toNat more, rfl⟩, fun _ final => absurd more final⟩
    · exact ⟨_, (Edge.complete rst st inside more).step_eq, fun h => absurd h inside,
        fun _ h => absurd h more, fun _ _ => ⟨rfl, fun inv => inv.lo_low st⟩⟩

end Sys2Proof.Machine
end

section
/-! PROOFS. What a busy block does not read (40_command_cycle.md R83, 41_read.md R91, R98, R102): the data
line outside the sample edges, and the command port. -/

namespace Sys2Proof.Machine

/-- R90, R91, R98: a state with other levels of `dout` takes the same edge. The level of this cycle
goes into `nrdy` where a READ is accepted and into `sr` where a data pulse's high half ends. -/
theorem Edge.with_line {s t : State} (e : Edge s t) (l : List Bool) :
    ∃ n r, Edge { s with line := l } { t with nrdy := n, sr := r, line := l.tail } ∧
      ((s.accepted.bind gainOf) = none → n = t.nrdy) ∧
      (¬ (s.inRst = false ∧ s.st = .hi ∧ ¬ s.tmr < s.params.tHalf - 1 ∧ s.cnt.toNat < 24) →
        r = t.sr) := by
  cases e with
  | read i g acc gain => exact ⟨_, _, .read i g acc gain, by simp [acc, gain], fun _ => rfl⟩
  | endHigh rst st last =>
    refine ⟨_, _, .endHigh rst st last, fun _ => rfl, fun unsampled => ?_⟩
    have gain : ¬ s.cnt.toNat < 24 := fun data => unsampled ⟨rst, st, last, data⟩
    simp [gain]
  | reset rst => exact ⟨_, _, .reset rst, fun _ => rfl, fun _ => rfl⟩
  | nop acc => exact ⟨_, _, .nop acc, fun _ => rfl, fun _ => rfl⟩
  | powerDown acc => exact ⟨_, _, .powerDown acc, fun _ => rfl, fun _ => rfl⟩
  | powerUp acc => exact ⟨_, _, .powerUp acc, fun _ => rfl, fun _ => rfl⟩
  | reserved i acc res => exact ⟨_, _, .reserved i acc res, fun _ => rfl, fun _ => rfl⟩
  | quiet rst acc st => exact ⟨_, _, .quiet rst acc st, fun _ => rfl, fun _ => rfl⟩
  | countHigh rst st inside => exact ⟨_, _, .countHigh rst st inside, fun _ => rfl, fun _ => rfl⟩
  | countLow rst st inside => exact ⟨_, _, .countLow rst st inside, fun _ => rfl, fun _ => rfl⟩
  | nextPulse rst st last more =>
    exact ⟨_, _, .nextPulse rst st last more, fun _ => rfl, fun _ => rfl⟩
  | complete rst st last final =>
    exact ⟨_, _, .complete rst st last final, fun _ => rfl, fun _ => rfl⟩
  | countPower rst st inside => exact ⟨_, _, .countPower rst st inside, fun _ => rfl, fun _ => rfl⟩
  | endPower rst st last => exact ⟨_, _, .endPower rst st last, fun _ => rfl, fun _ => rfl⟩

/-- Settles O37: `Edge.with_line`. -/
theorem dataLineOnlyWhereSampled : Obligations.DataLineOnlyWhereSampled := by
  intro s l t u h h'
  obtain ⟨n, r, same, nrdy, sr⟩ := (Edge.of_step h).with_line l
  cases same.step_eq.symm.trans h'
  exact ⟨rfl, nrdy, sr⟩

/-- `rst = 0` in the coming cycles, seen one cycle later. -/
theorem State.noReset_of_tail {s t : State} {n : Nat} (h : t.port = s.port.tail)
    (noReset : s.noReset 0 (n + 1)) : t.noReset 0 n := by
  intro j more
  rw [Nat.zero_add, State.portAt_of_tail h, ← Nat.zero_add (j + 1)]
  exact noReset (j + 1) (by omega)

/-- Settles O49: by induction on `n`; the edge of a busy block accepts nothing from either list of
inputs, so `Edge.withPort` gives the same edge for both. -/
theorem busyBlockIgnoresCommands : Obligations.BusyBlockIgnoresCommands := by
  intro n
  induction n with
  | zero =>
    rintro s q t - - - h
    cases h
    rfl
  | succ n ih =>
    intro s q t noReset noReset' busy h
    have busyNow : s.st ≠ .idle := of_decide_eq_true (busy 0 n.succ_pos s rfl)
    have hs := step_of_busy (noReset 0 n.succ_pos) busyNow
    have sameRst : (s.withPort q).inRst = s.inRst :=
      (noReset' 0 n.succ_pos).trans (noReset 0 n.succ_pos).symm
    have sameAcc : (s.withPort q).accepted = s.accepted := by
      rw [State.accepted_of_busy busyNow, State.accepted_of_busy (s := s.withPort q) busyNow]
    have same := (Edge.of_step hs).withPort sameRst sameAcc
    obtain ⟨-, port, -⟩ := step_inputs hs
    have later := ih _ q.tail t (State.noReset_of_tail port noReset)
      (State.noReset_of_tail rfl noReset')
      (fun m more u hu => busy (m + 1) (by omega) u ((run_succ_of_step hs m).trans hu))
      ((run_succ_of_step hs n).symm.trans h)
    rw [List.drop_tail] at later
    exact (run_succ_of_step same.step_eq n).trans later

end Sys2Proof.Machine
end

section
/-! PROOFS. A whole READ, cycle by cycle (41_read.md R93 to R97): what each of its cycles shows on the
ports, where in its pulse it lies, and how the READ ends. -/

namespace Sys2Proof.Machine

theorem State.startsRead_gain_le {s : State} {g : GainCode} (h : s.startsRead g) : g.toNat ≤ 2 := by
  obtain ⟨i, -, gain⟩ := State.startsRead_iff.mp h
  exact gain_le_two gain

theorem Edge.of_startsRead {s : State} {g : GainCode} (h : s.startsRead g) :
    Edge s (s.startRead g) := by
  obtain ⟨i, acc, gain⟩ := State.startsRead_iff.mp h
  exact .read i g acc gain

theorem State.busy_of_reading {s : State} (reading : s.reading) : s.st ≠ .idle := by
  obtain st | st := reading <;> simp [st]

/-- R92: the completion edge. -/
theorem Edge.of_completes {s : State} (completes : s.completes = true) : Edge s s.complete := by
  obtain ⟨rst, st, last, final⟩ := State.completes_iff.mp completes
  exact .complete rst st last final

/-- R91, R92: what the edge of a cycle inside a READ can do, if it does not complete the READ. -/
theorem Edge.reading_cases {s t : State} (e : Edge s t) (rst : s.inRst = false)
    (reading : s.reading) (more : s.completes = false) :
    t = s.countTmr ∨ (s.st = .hi ∧ t = s.endHigh) ∨
    (s.st = .lo ∧ s.cnt.toNat < 24 + s.g.toNat ∧ t = s.nextPulse) := by
  have busy := State.busy_of_reading reading
  cases e.step_eq.symm.trans (step_of_busy rst busy)
  obtain ⟨st, -⟩ | ⟨st, e⟩ | ⟨st, e⟩ | ⟨st, -⟩ := s.phaseEdge_cases
  · exact absurd st busy
  · obtain ⟨-, e'⟩ | ⟨-, e'⟩ := s.hiEdge_cases
    · exact .inl (e.trans e')
    · exact .inr (.inl ⟨st, e.trans e'⟩)
  · obtain ⟨-, e'⟩ | ⟨-, pulse, e'⟩ | ⟨last, final, -⟩ := s.loEdge_cases
    · exact .inl (e.trans e')
    · exact .inr (.inr ⟨st, pulse, e.trans e'⟩)
    · exact absurd (State.completes_iff.mpr ⟨rst, st, last, final⟩) (by simp [more])
  · simp [State.reading, st] at reading

/-! Where in its pulse a cycle lies. -/

section Position

variable {s t : State} {g : GainCode} {m : Nat}

/-- R96: the halves done and the timer are the quotient and the remainder of the cycle. -/
theorem ReadCycle.halvesDone_eq {h c : Nat} (r : ReadCycle s g (h * s.params.tHalf + c) t)
    (inside : c < s.params.tHalf) : t.halvesDone = h ∧ t.tmr = c := by
  have quotient : t.halvesDone = h := by
    have elapsed := congrArg (· / s.params.tHalf) r.elapsed
    simpa [Nat.mul_comm _ s.params.tHalf, Nat.mul_add_div s.params.tHalf_pos,
      Nat.div_eq_of_lt inside, Nat.div_eq_of_lt r.timer] using elapsed.symm
  have elapsed := r.elapsed
  rw [quotient] at elapsed
  exact ⟨quotient, by omega⟩

/-- R96: a cycle of the high half of pulse `p`. -/
theorem ReadCycle.high {p c : Nat} (r : ReadCycle s g (2 * p * s.params.tHalf + c) t)
    (inside : c < s.params.tHalf) : t.st = .hi ∧ t.cnt.toNat = p ∧ t.tmr = c := by
  obtain ⟨halves, tmr⟩ := r.halvesDone_eq inside
  obtain st | st := r.reading
  · rw [State.halvesDone_of_hi st] at halves
    exact ⟨st, by omega, tmr⟩
  · rw [State.halvesDone_of_lo st] at halves
    omega

/-- R96: a cycle of the low half of pulse `p`. -/
theorem ReadCycle.low {p c : Nat}
    (r : ReadCycle s g (2 * p * s.params.tHalf + s.params.tHalf + c) t)
    (inside : c < s.params.tHalf) : t.st = .lo ∧ t.cnt.toNat = p ∧ t.tmr = c := by
  rw [← Nat.succ_mul] at r
  obtain ⟨halves, tmr⟩ := r.halvesDone_eq inside
  obtain st | st := r.reading
  · rw [State.halvesDone_of_hi st] at halves
    omega
  · rw [State.halvesDone_of_lo st] at halves
    exact ⟨st, by omega, tmr⟩

/-- R93: the high half is the first `T_HALF` cycles of every `2 T_HALF`. -/
theorem ReadCycle.hi_iff (c : ReadCycle s g m t) :
    t.st = .hi ↔ m % (2 * s.params.tHalf) < s.params.tHalf := by
  have timer := c.timer
  obtain st | st := c.reading
  · have elapsed : m = 2 * s.params.tHalf * t.cnt.toNat + t.tmr := by
      rw [c.elapsed, State.halvesDone_of_hi st, Nat.mul_right_comm]
    rw [elapsed, Nat.mul_add_mod, Nat.mod_eq_of_lt (by omega)]
    simp [st, timer]
  · have elapsed : m = 2 * s.params.tHalf * t.cnt.toNat + (s.params.tHalf + t.tmr) := by
      rw [c.elapsed, State.halvesDone_of_lo st, Nat.succ_mul, Nat.mul_right_comm, Nat.add_assoc]
    rw [elapsed, Nat.mul_add_mod, Nat.mod_eq_of_lt (by omega)]
    simp [st]

/-- R96: the low half of pulse `p` lies in the READ. -/
theorem lowCycle_lt {T p c k : Nat} (pulse : p ≤ 24 + k) (inside : c < T) :
    2 * p * T + T + c < 2 * T * (25 + k) := by
  have : 2 * T * (p + 1) ≤ 2 * T * (25 + k) := Nat.mul_le_mul_left _ (by omega)
  rw [Nat.mul_add_one, Nat.mul_right_comm] at this
  omega

/-- R96: the high half of pulse `p` lies in the READ. -/
theorem highCycle_lt {T p c k : Nat} (pulse : p ≤ 24 + k) (inside : c < T) :
    2 * p * T + c < 2 * T * (25 + k) :=
  (Nat.add_le_add_right (Nat.le_add_right _ T) c).trans_lt (lowCycle_lt pulse inside)

theorem ReadCycle.inRst_eq {n : Nat} (noReset : s.noReset 1 n) (c : ReadCycle s g m t)
    (inside : m < n) : t.inRst = false := by
  rw [State.inRst, run_portAt c.reached]
  exact noReset m inside

/-- R97: exactly the edge that ends cycle `L(g) - 1` completes the READ. -/
theorem ReadCycle.completes_iff_last (c : ReadCycle s g m t) (rst : t.inRst = false)
    (inside : m < 2 * s.params.tHalf * (25 + g.toNat)) :
    t.completes = true ↔ m + 1 = 2 * s.params.tHalf * (25 + g.toNat) := by
  rw [State.completes_iff]
  constructor
  · rintro ⟨-, st, last, final⟩
    exact Nat.le_antisymm inside (c.le_of_final st last final)
  · intro final
    obtain ⟨st, last, cnt⟩ := c.final final
    exact ⟨rst, st, last, by omega⟩

theorem ReadCycle.reached_succ (c : ReadCycle s g m t) : run (m + 1) s = .next t :=
  Nat.add_comm 1 m ▸ c.reached

/-- R91: the sample of a data pulse. -/
theorem ReadCycle.endHigh_sr_eq (c : ReadCycle s g m t) (st : t.st = .hi)
    (last : ¬ t.tmr < t.params.tHalf - 1) (data : t.cnt.toNat < 24) :
    t.endHigh.sr = shiftIn t.sr (s.sampleAt t.cnt.toNat) := by
  rw [State.endHigh_sr, if_pos data, c.inDout_eq st last]

end Position

section WholeRead

variable {s t : State} {g : GainCode} {m : Nat} (h : s.startsRead g)
  (noReset : s.noReset 1 (2 * s.params.tHalf * (25 + g.toNat)))

include h noReset

/-- R97: the last cycle of a READ. -/
theorem exists_lastReadCycle : ∃ m t, m + 1 = 2 * s.params.tHalf * (25 + g.toNat) ∧
    ReadCycle s g m t ∧ t.completes = true := by
  obtain ⟨m, final⟩ : ∃ m, m + 1 = 2 * s.params.tHalf * (25 + g.toNat) :=
    Nat.exists_add_one_eq.mpr (Nat.mul_pos (Nat.mul_pos two_pos s.params.tHalf_pos) (by omega))
  obtain ⟨t, c⟩ := exists_readCycle h noReset m (by omega)
  have rst := c.inRst_eq noReset (by omega)
  exact ⟨m, t, final, c, (c.completes_iff_last rst (by omega)).mpr final⟩

/-- What holds in cycle 0 of a READ, and is kept by the edges between its cycles, holds in each of
its cycles. -/
theorem ReadCycle.induction {P : Nat → State → Prop} (first : P 0 (s.startRead g))
    (keeps : ∀ m t u, ReadCycle s g m t → Edge t u → t.inRst = false → t.completes = false →
      P m t → P (m + 1) u)
    (c : ReadCycle s g m t) (inside : m < 2 * s.params.tHalf * (25 + g.toNat)) : P m t := by
  induction m generalizing t with
  | zero =>
    cases c.reached.symm.trans (ReadCycle.start h).reached
    exact first
  | succ m ih =>
    obtain ⟨b, before⟩ := exists_readCycle h noReset m (by omega)
    have rst := before.inRst_eq noReset (by omega)
    have more : b.completes = false := by
      rw [Bool.eq_false_iff, Ne, before.completes_iff_last rst (by omega)]
      omega
    obtain ⟨u, e⟩ := exists_edge b
    cases c.reached.symm.trans (before.reached_next e)
    exact keeps m b t before e rst more (ih before (by omega))

/-- R32: the invariant holds in every cycle of a READ, whatever the state before it. -/
theorem ReadCycle.inv (c : ReadCycle s g m t)
    (inside : m < 2 * s.params.tHalf * (25 + g.toNat)) : Inv t :=
  c.induction h noReset (P := fun _ t => Inv t) (.startRead (State.startsRead_gain_le h))
    (fun _ _ _ _ e _ _ => e.inv) inside

/-- R101: the old frame stays while the READ is in flight. -/
theorem ReadCycle.frame_eq (c : ReadCycle s g m t)
    (inside : m < 2 * s.params.tHalf * (25 + g.toNat)) : t.frame = s.frame :=
  c.induction h noReset (P := fun _ t => t.frame = s.frame) rfl
    (fun _ _ _ _ e rst more kept => by simpa [rst, more, kept] using step_frame e.step_eq) inside

/-- R93: in a cycle of a READ the clock line is high exactly in the high half. -/
theorem ReadCycle.sck_eq (c : ReadCycle s g m t)
    (inside : m < 2 * s.params.tHalf * (25 + g.toNat)) : t.sck = decide (t.st = .hi) :=
  (c.inv h noReset inside).sck_of_reading c.reading

/-- R96: the cycles of the high half of pulse `p`. -/
theorem exists_highCycle {p c : Nat} (pulse : p ≤ 24 + g.toNat) (inside : c < s.params.tHalf) :
    ∃ t, ReadCycle s g (2 * p * s.params.tHalf + c) t ∧ t.st = .hi ∧ t.sck = true ∧
      t.cnt.toNat = p ∧ t.tmr = c := by
  have within := highCycle_lt pulse inside
  obtain ⟨t, r⟩ := exists_readCycle h noReset _ within
  obtain ⟨st, position⟩ := r.high inside
  exact ⟨t, r, st, by simp [r.sck_eq h noReset within, st], position⟩

/-- R96: the cycles of the low half of pulse `p`. -/
theorem exists_lowCycle {p c : Nat} (pulse : p ≤ 24 + g.toNat) (inside : c < s.params.tHalf) :
    ∃ t, ReadCycle s g (2 * p * s.params.tHalf + s.params.tHalf + c) t ∧ t.st = .lo ∧
      t.sck = false ∧ t.cnt.toNat = p ∧ t.tmr = c := by
  have within := lowCycle_lt pulse inside
  obtain ⟨t, r⟩ := exists_readCycle h noReset _ within
  obtain ⟨st, position⟩ := r.low inside
  exact ⟨t, r, st, by simp [r.sck_eq h noReset within, st], position⟩

/-- R91, R96: the edge that takes the sample of data pulse `p`. -/
theorem exists_sampleEdge {p : Nat} (data : p < 24) :
    ∃ t : State, run (2 * p * s.params.tHalf + s.params.tHalf) s = .next t ∧
      run (1 + (2 * p * s.params.tHalf + s.params.tHalf)) s = .next t.endHigh ∧
      t.endHigh.sr = shiftIn t.sr (s.sampleAt p) := by
  obtain ⟨c, half⟩ : ∃ c, c + 1 = s.params.tHalf :=
    Nat.exists_add_one_eq.mpr s.params.tHalf_pos
  have pulse : p ≤ 24 + g.toNat := by omega
  have inside : c < s.params.tHalf := by omega
  obtain ⟨t, r, st, -, rfl, tmr⟩ := exists_highCycle h noReset pulse inside
  have last : ¬ t.tmr < t.params.tHalf - 1 := by rw [r.params]; omega
  have e := Edge.endHigh (r.inRst_eq noReset (highCycle_lt pulse inside)) st last
  have index : 2 * t.cnt.toNat * s.params.tHalf + s.params.tHalf =
      2 * t.cnt.toNat * s.params.tHalf + c + 1 := by omega
  rw [index]
  exact ⟨t, r.reached_succ, r.reached_next e, r.endHigh_sr_eq st last data⟩

end WholeRead

/-- Settles O42: the acceptance edge, `exists_highCycle` and `exists_lowCycle`, and
`exists_sampleEdge`. -/
theorem readWaveform : Obligations.ReadWaveform := by
  intro s g h noReset
  refine ⟨⟨_, (ReadCycle.start h).reached, ?_, rfl⟩, fun p c pulse inside => ⟨?_, ?_⟩,
    fun p data => ?_⟩
  · simp [State.nrdyAfterRead, State.readyNow, State.inDout, Bool.or_assoc]
  · obtain ⟨t, r, -, sck, cnt, -⟩ := exists_highCycle h noReset pulse inside
    exact ⟨t, r.reached, sck, cnt⟩
  · obtain ⟨t, r, -, sck, cnt, -⟩ := exists_lowCycle h noReset pulse inside
    exact ⟨t, r.reached, sck, cnt⟩
  · obtain ⟨t, before, after, sr⟩ := exists_sampleEdge h noReset data
    exact ⟨t, t.endHigh, before, after, sr⟩

/-- Settles O43: the invariant and the frame in each cycle of the READ, and its last cycle. -/
theorem readDuration : Obligations.ReadDuration := by
  intro s g h noReset
  refine ⟨fun m inside => ?_, ?_, fun half => ?_⟩
  · obtain ⟨t, c⟩ := exists_readCycle h noReset m inside
    have busy := State.busy_of_reading c.reading
    have inv := c.inv h noReset inside
    have frame := c.frame_eq h noReset inside
    exact ⟨t, c.reached, decide_eq_true busy, decide_eq_false busy, State.accepted_of_busy busy,
      run_done_of_busy c.reached busy, inv.reading_invalid c.reading, frame,
      congrArg sext24to32 frame⟩
  · obtain ⟨m, t, final, c, completes⟩ := exists_lastReadCycle h noReset
    obtain ⟨-, st, -, -⟩ := State.completes_iff.mp completes
    have low := (c.inv h noReset (by omega)).lo_low st
    rw [← final, Nat.add_comm m 1]
    exact ⟨t, t.complete, c.reached, Nat.add_comm m 1 ▸ c.reached_next (.of_completes completes),
      completes, rfl, rfl, rfl, rfl, rfl, low,
      fun rst valid => State.accepted_eq_some.mpr ⟨rst, valid, rfl, rfl⟩⟩
  · rw [half]
    exact ⟨by rintro rfl; rfl, by rintro rfl; rfl, by rintro rfl; rfl⟩

/-- Settles O44: `exists_completion`, and the completion edge moves the shift register to the frame. -/
theorem frameIsTheSamples : Obligations.FrameIsTheSamples := by
  intro s g h noReset
  obtain ⟨t, reached, samples⟩ := exists_completion h noReset
  refine ⟨_, reached, rfl, fun i data => ?_⟩
  rw [State.complete_frame, samples, show 24 - 1 - (23 - i) = i by omega]
  simp [State.sampleAt, show 23 - i < 24 by omega]

end Sys2Proof.Machine
end

section
/-! PROOFS. The pulses of a READ, counted (41_read.md R93). -/

namespace Sys2Proof.Machine

/-- How often `pd_sck` falls at one edge. -/
def fallAt (s t : State) : Nat := if s.sck && !t.sck then 1 else 0

theorem falls_succ_of_step {s t : State} (h : step s = .next t) (n : Nat) :
    falls (n + 1) s = fallAt s t + falls n t := by
  simp [falls, fallAt, h]

/-- One edge more, at the end of a run. -/
theorem falls_succ {n : Nat} {s t u : State} (h : run n s = .next t) (e : Edge t u) :
    falls (n + 1) s = falls n s + fallAt t u := by
  induction n generalizing s with
  | zero =>
    cases h
    rw [falls_succ_of_step e.step_eq, Nat.add_comm]
    rfl
  | succ n ih =>
    obtain ⟨w, first⟩ := exists_edge s
    have hs := first.step_eq
    rw [falls_succ_of_step hs, falls_succ_of_step hs, ih ((run_succ_of_step hs n).symm.trans h),
      Nat.add_assoc]

/-- R93: the pulses of a READ whose high half is over. -/
def State.pulsesFallen (s : State) : Nat := s.cnt.toNat + if s.st = .lo then 1 else 0

/-- R91, R92: an edge inside a READ lets the clock line fall where it ends a high half. -/
theorem Edge.pulsesFallen_eq {s t : State} (e : Edge s t) (inv : Inv s) (rst : s.inRst = false)
    (reading : s.reading) (more : s.completes = false) :
    t.pulsesFallen = s.pulsesFallen + fallAt s t := by
  obtain rfl | ⟨st, rfl⟩ | ⟨st, pulse, rfl⟩ := e.reading_cases rst reading more
  · have level : fallAt s s.countTmr = 0 := by simp [fallAt]
    rw [level]
    rfl
  · simp [State.pulsesFallen, fallAt, st, inv.hi_high st]
  · rw [State.pulsesFallen, State.nextPulse_cnt_toNat pulse]
    simp [State.pulsesFallen, fallAt, st]

/-- R93: up to each cycle of a READ the clock line has fallen once for each high half that is over. -/
theorem ReadCycle.falls_eq {s t : State} {g : GainCode} {m : Nat} (h : s.startsRead g)
    (noReset : s.noReset 1 (2 * s.params.tHalf * (25 + g.toNat))) (c : ReadCycle s g m t)
    (inside : m < 2 * s.params.tHalf * (25 + g.toNat)) :
    falls (m + 1) s = t.pulsesFallen := by
  have both : Inv t ∧ falls (m + 1) s = t.pulsesFallen := by
    refine c.induction h noReset (P := fun m t => Inv t ∧ falls (m + 1) s = t.pulsesFallen)
      ⟨.startRead (State.startsRead_gain_le h), ?_⟩ (fun m t u c e rst more kept => ?_) inside
    · rw [falls_succ (run_zero s) (.of_startsRead h)]
      simp [falls, fallAt, State.pulsesFallen]
    · obtain ⟨inv, count⟩ := kept
      rw [falls_succ c.reached_succ e, count,
        e.pulsesFallen_eq inv rst c.reading more]
      exact ⟨e.inv inv, rfl⟩
  exact both.2

/-- Settles O46: `ReadCycle.falls_eq` in the last cycle, after which the clock line is low already, and
`ReadCycle.hi_iff`. -/
theorem readPulseCount : Obligations.ReadPulseCount := by
  intro s g h noReset
  refine ⟨?_, fun m inside => ?_⟩
  · obtain ⟨m, t, final, c, completes⟩ := exists_lastReadCycle h noReset
    obtain ⟨st, -, cnt⟩ := c.final final
    have low : t.sck = false := by simp [c.sck_eq h noReset (by omega), st]
    rw [← final, Nat.add_comm, falls_succ c.reached_succ (.of_completes completes),
      c.falls_eq h noReset (by omega), State.pulsesFallen, cnt, c.gain]
    simp [fallAt, st, low, Nat.add_assoc]
  · obtain ⟨t, c⟩ := exists_readCycle h noReset m inside
    exact ⟨t, c.reached, by simp [c.sck_eq h noReset inside, c.hi_iff]⟩

end Sys2Proof.Machine
end

section
/-! PROOFS. The monitor over a whole READ (41_read.md R94, 70_reset_and_hazards.md R178). -/

namespace Sys2Proof.Machine

theorem Monitor.watchFor_succ_of_step {s t : State} (h : step s = .next t) (n : Nat)
    (m : Monitor) : Monitor.watchFor (n + 1) m s = Monitor.watchFor n (m.watch s) t := by
  simp [Monitor.watchFor, h]

/-- One edge more, at the end of a run. -/
theorem Monitor.watchFor_succ {n : Nat} {s t u : State} (h : run n s = .next t) (e : Edge t u)
    (m : Monitor) : Monitor.watchFor (n + 1) m s = (Monitor.watchFor n m s).watch t := by
  induction n generalizing s m with
  | zero =>
    cases h
    exact Monitor.watchFor_succ_of_step e.step_eq 0 m
  | succ n ih =>
    obtain ⟨w, first⟩ := exists_edge s
    have hs := first.step_eq
    rw [Monitor.watchFor_succ_of_step hs, Monitor.watchFor_succ_of_step hs,
      ih ((run_succ_of_step hs n).symm.trans h)]

/-- The monitor after the acceptance of a READ. -/
theorem Monitor.watch_of_startsRead {s : State} {g : GainCode} (h : s.startsRead g)
    (m : Monitor) : m.watch s = { m with malformed := !s.ready, halfPulse := false } := by
  obtain ⟨i, acc, gain⟩ := State.startsRead_iff.mp h
  simp [Monitor.watch, State.inRst_of_accepted acc, acc, Monitor.onAccept, gain]

/-- The monitor after an edge of a READ in flight. -/
theorem Monitor.watch_of_reading {s : State} (rst : s.inRst = false) (reading : s.reading)
    (m : Monitor) : m.watch s = if s.completes then m.onComplete s else m := by
  simp [Monitor.watch, rst, State.accepted_of_busy (State.busy_of_reading reading)]

/-- Nothing that the monitor keeps changes while a READ is in flight. -/
theorem ReadCycle.watchFor_eq {s t : State} {g : GainCode} {n : Nat} (h : s.startsRead g)
    (noReset : s.noReset 1 (2 * s.params.tHalf * (25 + g.toNat))) (c : ReadCycle s g n t)
    (inside : n < 2 * s.params.tHalf * (25 + g.toNat)) (m : Monitor) :
    Monitor.watchFor (n + 1) m s = m.watch s := by
  refine c.induction h noReset (P := fun n _ => Monitor.watchFor (n + 1) m s = m.watch s)
    (Monitor.watchFor_succ (run_zero s) (.of_startsRead h) m)
    (fun n t u c e rst more kept => ?_) inside
  rw [Monitor.watchFor_succ c.reached_succ e, kept,
    Monitor.watch_of_reading rst c.reading, more]
  rfl

/-- R94, R178: the monitor after a whole READ. -/
theorem Monitor.watchFor_read {s : State} {g : GainCode} (h : s.startsRead g)
    (noReset : s.noReset 1 (2 * s.params.tHalf * (25 + g.toNat))) (m : Monitor) :
    ∃ t : State, t.g = g ∧
      Monitor.watchFor (1 + 2 * s.params.tHalf * (25 + g.toNat)) m s =
        (m.watch s).onComplete t := by
  obtain ⟨n, t, final, c, completes⟩ := exists_lastReadCycle h noReset
  refine ⟨t, c.gain, ?_⟩
  rw [← final, Nat.add_comm,
    Monitor.watchFor_succ c.reached_succ (.of_completes completes),
    c.watchFor_eq h noReset (by omega),
    Monitor.watch_of_reading (c.inRst_eq noReset (by omega)) c.reading, if_pos completes]

/-- Settles O54: `Monitor.watchFor_read`, and a READ accepted with `ready = 1` and no reset pulse owed
leaves a monitor that trusts its frame. -/
theorem gainSelectionLagsOneRead : Obligations.GainSelectionLagsOneRead := by
  intro s g m h ready owes noReset
  obtain ⟨t, gain, watched⟩ := Monitor.watchFor_read h noReset m
  rw [watched, Monitor.watch_of_startsRead h]
  simp [Monitor.onComplete, Monitor.trusts, ready, owes, gain]

end Sys2Proof.Machine
end

section
/-! PROOFS. The sign extender, bit by bit and as a number (42_sign_extend.md R110, R112, R113). -/

namespace Sys2Proof.Machine

/-- R112: every bit of the value from 23 up is the sign of the frame. -/
theorem getLsbD_sext24to32_high (raw : Frame) {i : Nat} (low : 23 ≤ i) (high : i ≤ 31) :
    (sext24to32 raw).getLsbD i = raw.getLsbD 23 := by
  rw [getLsbD_sext24to32]
  split
  · next inside => rw [show i = 23 by omega]
  · simp [show i < 32 by omega]

/-- R112: the low 24 bits of the value give the frame back. -/
@[simp] theorem extractLsb'_sext24to32 (raw : Frame) :
    (sext24to32 raw).extractLsb' 0 24 = raw := by
  refine BitVec.eq_of_getLsbD_eq fun i inside => ?_
  simp [getLsbD_sext24to32, inside]

theorem sext24to32_injective : Function.Injective sext24to32 :=
  Function.LeftInverse.injective extractLsb'_sext24to32

/-- A value whose bits 23 to 31 are equal is the sign extension of its own low 24 bits. -/
theorem sext24to32_extractLsb' {v : Value}
    (equal : ∀ i, 23 ≤ i → i ≤ 31 → v.getLsbD i = v.getLsbD 31) :
    sext24to32 (v.extractLsb' 0 24) = v := by
  refine BitVec.eq_of_getLsbD_eq fun i inside => ?_
  by_cases low : i < 24
  · simp [getLsbD_sext24to32, low]
  · have sign : v.getLsbD 23 = v.getLsbD i :=
      (equal 23 (by omega) (by omega)).trans (equal i (by omega) (by omega)).symm
    rw [getLsbD_sext24to32_high _ (by omega) (by omega), BitVec.getLsbD_extractLsb']
    simpa using sign

/-- R112: the image of the sign extender. -/
theorem exists_sext24to32_eq_iff {v : Value} :
    (∃ raw, sext24to32 raw = v) ↔ ∀ i, 23 ≤ i → i ≤ 31 → v.getLsbD i = v.getLsbD 31 := by
  constructor
  · rintro ⟨raw, rfl⟩ i low high
    rw [getLsbD_sext24to32_high raw low high,
      getLsbD_sext24to32_high raw (by omega) (by omega)]
  · exact fun equal => ⟨_, sext24to32_extractLsb' equal⟩

/-- Settles O40: the bits of the value from `getLsbD_sext24to32_high`, the frame from its low bits,
and the image from `exists_sext24to32_eq_iff`. -/
theorem signExtensionBits : Obligations.SignExtensionBits :=
  ⟨fun raw => ⟨extractLsb'_sext24to32 raw,
      fun _ low high => getLsbD_sext24to32_high raw (by omega) high,
      getLsbD_sext24to32_high raw (by omega) (by omega)⟩,
    fun _ _ same => sext24to32_injective same,
    fun _ => exists_sext24to32_eq_iff⟩

/-- R110: the two cases of `sext24to32` are the sign extension from 24 to 32 bits. -/
theorem sext24to32_eq_signExtend (raw : Frame) : sext24to32 raw = raw.signExtend 32 := by
  refine BitVec.eq_of_getLsbD_eq fun i inside => ?_
  rw [getLsbD_sext24to32, BitVec.getLsbD_signExtend, BitVec.msb_eq_getLsbD_last]
  simp [inside]

/-- R113: the value, as a number, is the frame read in two's complement. -/
theorem toInt_sext24to32 (raw : Frame) : (sext24to32 raw).toInt = raw.toInt := by
  rw [sext24to32_eq_signExtend, BitVec.toInt_signExtend_of_le (by decide)]

/-- R113: a frame in two's complement weighs its bit 23 with `-2^24` beside the unsigned frame. -/
theorem toInt_frame_eq (raw : Frame) :
    raw.toInt = (raw.toNat : Int) - 2 ^ 24 * (raw.getLsbD 23).toNat := by
  rw [BitVec.toInt_eq_msb_cond, BitVec.msb_eq_getLsbD_last]
  cases raw.getLsbD 23 <;> simp

/-- Settles O41: the value is the frame in two's complement (`toInt_sext24to32`), so its range is that
of 24 bits, and its two cases are those of `toInt_frame_eq`. -/
theorem signExtensionValue : Obligations.SignExtensionValue := by
  intro raw
  have value := toInt_sext24to32 raw
  have weighed := value.trans (toInt_frame_eq raw)
  have low : -2 ^ 23 ≤ raw.toInt := raw.le_toInt
  have high : raw.toInt < 2 ^ 23 := raw.toInt_lt
  refine ⟨weighed, value, sext24to32_eq_signExtend raw, by omega, by omega,
    fun nonneg => ?_, fun neg => ?_⟩
  · rw [weighed, nonneg]
    simp
  · rw [weighed, neg]
    simp

end Sys2Proof.Machine
end

section
/-! PROOFS. The power commands (43_power.md R120 to R122): the acceptance edge, the edges of a hold, and the
whole tuple in each of its `T_PWR` cycles. -/

namespace Sys2Proof.Machine

/-- R120, R121: the tuple after the acceptance edge. -/
theorem State.block_startPower (s : State) (level : Bool) : (s.startPower level).block =
    { s.block with sck := level, tmr := 0, st := .pwr, done := false } := rfl

/-- Settles O20: each meaning is `State.startPower` with its level. -/
theorem powerAcceptanceEdge : Obligations.PowerAcceptanceEdge :=
  ⟨fun s _ => ⟨_, rfl, s.block_startPower true⟩, fun s _ => ⟨_, rfl, s.block_startPower false⟩⟩

/-- The tuple after an edge inside a phase. -/
theorem State.block_countTmr (s : State) :
    s.countTmr.block = { s.block with tmr := s.tmr + 1, done := false } := rfl

/-- R122: the tuple after the edge that ends a hold. -/
theorem State.block_endPower (s : State) :
    s.endPower.block = { s.block with tmr := 0, st := .idle, done := false } := rfl

/-- R120, R121: the rows of the power commands. -/
theorem Edge.of_power {s : State} {i : Instr} {level : Bool} (acc : s.accepted = some i)
    (row : (i, level) ∈ [(Instr.powerDown, true), (.powerUp, false)]) :
    Edge s (s.startPower level) := by
  simp only [List.mem_cons, Prod.mk.injEq, List.not_mem_nil, or_false] at row
  obtain ⟨rfl, rfl⟩ | ⟨rfl, rfl⟩ := row
  · exact .powerDown acc
  · exact .powerUp acc

/-- `rst = 0` in the cycle that a run has reached. -/
theorem inRst_of_noReset {s t : State} {i m n : Nat} (noReset : s.noReset i n) (inside : m < n)
    (h : run (i + m) s = .next t) : t.inRst = false := by
  rw [State.inRst, run_portAt h]
  exact noReset m inside

/-- One more edge after a run. -/
theorem run_succ_of_edge {n : Nat} {s t u : State} (h : run n s = .next t) (e : Edge t u) :
    run (n + 1) s = .next u := by
  rw [run_add h, run_one, e.step_eq]

section Hold

variable {s : State} {level : Bool} (start : Edge s (s.startPower level))
  (noReset : s.noReset 1 s.params.tPwr)

include start noReset

/-- R122: in cycle `m` of the hold the timer is at `m`, and the tuple is otherwise that of cycle 0. -/
theorem exists_holdCycle : ∀ m, m < s.params.tPwr → ∃ t, run (1 + m) s = .next t ∧
    t.block = { s.block with sck := level, tmr := m, st := .pwr, done := false }
  | 0, _ => ⟨_, (run_one s).trans start.step_eq, s.block_startPower level⟩
  | m + 1, more => by
    obtain ⟨t, h, block⟩ := exists_holdCycle m (by omega)
    have st : t.st = .pwr := congrArg Block.st block
    have tmr : t.tmr = m := congrArg Block.tmr block
    have inside : t.tmr < t.params.tPwr - 1 := by rw [tmr, run_params h]; omega
    have e := Edge.countPower (inRst_of_noReset noReset (by omega) h) st inside
    exact ⟨_, run_succ_of_edge h e, by rw [State.block_countTmr, block, tmr]⟩

/-- R122: after `T_PWR` cycles the block is idle again; of the tuple from before the command only the
clock line's level, the timer and `done` are the hold's. -/
theorem exists_holdEnd : ∃ t, run (1 + s.params.tPwr) s = .next t ∧
    t.block = { s.block with sck := level, tmr := 0, st := .idle, done := false } := by
  have positive := s.params.tPwr_pos
  have below : s.params.tPwr - 1 < s.params.tPwr := by omega
  obtain ⟨t, h, block⟩ := exists_holdCycle start noReset _ below
  have st : t.st = .pwr := congrArg Block.st block
  have tmr : t.tmr = s.params.tPwr - 1 := congrArg Block.tmr block
  have last : ¬ t.tmr < t.params.tPwr - 1 := by rw [tmr, run_params h]; omega
  have e := Edge.endPower (inRst_of_noReset noReset below h) st last
  have ends := run_succ_of_edge h e
  rw [Nat.add_assoc, Nat.sub_add_cancel positive] at ends
  exact ⟨_, ends, by rw [State.block_endPower, block]⟩

end Hold

/-- R122: the two edges of a hold. -/
theorem step_of_pwr {s : State} (rst : s.inRst = false) (st : s.st = .pwr) :
    ∃ t, step s = .next t ∧
      (s.tmr < s.params.tPwr - 1 → t.block = { s.block with tmr := s.tmr + 1, done := false }) ∧
      (¬ s.tmr < s.params.tPwr - 1 →
        t.block = { s.block with tmr := 0, st := .idle, done := false }) := by
  by_cases inside : s.tmr < s.params.tPwr - 1
  · exact ⟨_, (Edge.countPower rst st inside).step_eq, fun _ => s.block_countTmr, absurd inside⟩
  · exact ⟨_, (Edge.endPower rst st inside).step_eq, fun h => absurd h inside,
      fun _ => s.block_endPower⟩

/-- Settles O24: `step_of_pwr`, and the registers of the tuples that `exists_holdCycle` and
`exists_holdEnd` give. -/
theorem powerHold : Obligations.PowerHold := by
  refine ⟨fun s => step_of_pwr, fun s i level acc row noReset => ?_⟩
  have start := Edge.of_power acc row
  refine ⟨fun m inside => ?_, ?_⟩
  · obtain ⟨t, h, block⟩ := exists_holdCycle start noReset m inside
    have st : t.st = .pwr := congrArg Block.st block
    exact ⟨t, h, by simp [State.busy, st], congrArg Block.sck block⟩
  · obtain ⟨t, h, block⟩ := exists_holdEnd start noReset
    simp only [State.block, Block.mk.injEq] at block
    exact ⟨t, h, by simp [State.busy, block]⟩

end Sys2Proof.Machine
end

section
/-! PROOFS. NOP and the reserved words (44_nop_reserved.md R130, R131): the tuple after the acceptance
edge, and when `ill` keeps its value. -/

namespace Sys2Proof.Machine

/-- R84: the tuple after an edge that does nothing else. -/
theorem State.block_tick (s : State) : s.tick.block = { s.block with done := false } := rfl

/-- Settles O18: the meaning is `State.tick`. -/
theorem nopOnlyClearsDone : Obligations.NopOnlyClearsDone := fun s _ => ⟨_, rfl, s.block_tick⟩

/-- R131: the tuple after the acceptance edge. -/
theorem State.block_setIll (s : State) :
    s.setIll.block = { s.block with ill := true, done := false } := rfl

/-- R83, R131: a busy block accepts no word, so none that is presented sets `ill`. -/
theorem ill_of_busy {s t : State} (h : step s = .next t) (rst : s.inRst = false)
    (busy : s.st ≠ .idle) : t.ill = s.ill := by
  obtain ⟨-, -, ill⟩ := step_flags h rst
  simpa [State.accepted_of_busy busy] using ill

/-- R31, R170: `ill` once set stays set at every edge but a reset edge, which clears it. -/
theorem ill_of_ill {s t : State} (h : step s = .next t) (set : s.ill = true) :
    t.ill = !s.inRst := by
  cases rst : s.inRst with
  | true =>
    cases (step_of_rst rst).symm.trans h
    rfl
  | false =>
    obtain ⟨-, -, ill⟩ := step_flags h rst
    simpa [set] using ill

/-- Settles O21: `exec_of_reserved` with the tuple after its edge, `ill_of_busy` and `ill_of_ill`. -/
theorem reservedSetsIllOnly : Obligations.ReservedSetsIllOnly :=
  ⟨fun _ s res _ => ⟨_, exec_of_reserved res s, s.block_setIll⟩,
    fun _ _ _ _ busy rst _ _ h => ill_of_busy h rst busy,
    fun _ _ set h => ill_of_ill h set⟩

end Sys2Proof.Machine
end

section
/-! PROOFS. Exceptions (60_exceptions.md): no state and no command stops the block (R150), and the causes
of ILL and NRDY exclude each other (R151, R152, R155). -/

namespace Sys2Proof.Machine

/-- R150: every command has an effect in every state, accepted or not. -/
theorem exists_exec (i : Instr) (s : State) : ∃ t, exec i s = .next t := by
  obtain ⟨-, e⟩ | ⟨_, -, e⟩ | ⟨-, e⟩ | ⟨-, e⟩ | ⟨-, e⟩ := exec_cases i s <;> exact ⟨_, e⟩

/-- R80: every state has a next one. -/
theorem exists_step (s : State) : ∃ t, step s = .next t := by
  obtain ⟨t, e⟩ := exists_edge s
  exact ⟨t, e.step_eq⟩

/-- R88: the block runs for any number of edges. -/
theorem exists_run (n : Nat) (s : State) : ∃ t, run n s = .next t := by
  induction n generalizing s with
  | zero => exact ⟨s, rfl⟩
  | succ n ih =>
    obtain ⟨u, h⟩ := exists_step s
    rw [run_succ_of_step h]
    exact ih u

/-- Settles O16: every command, every edge and every run answers a next state. -/
theorem nothingStopsTheBlock : Obligations.NothingStopsTheBlock :=
  ⟨exists_exec, exists_step, exists_run⟩

/-- R81, R155 point 1: an edge that sets a flag is no reset edge. -/
theorem inRst_of_flag {s t : State} (h : step s = .next t) (set : t.ill = true ∨ t.nrdy = true) :
    s.inRst = false := by
  by_contra reset
  cases (step_of_rst (eq_true_of_ne_false reset)).symm.trans h
  simp at set

/-- R151: `ill` rises only where a reserved word is accepted. -/
theorem exists_reserved_of_ill_rises {s t : State} (h : step s = .next t) (before : s.ill = false)
    (after : t.ill = true) : ∃ i, s.accepted = some i ∧ i.reserved = true := by
  obtain ⟨-, -, ill⟩ := step_flags h (inRst_of_flag h (.inl after))
  simpa [before, after] using ill

/-- R152: `nrdy` rises only where a READ is accepted while `ready` is 0. -/
theorem exists_read_of_nrdy_rises {s t : State} (h : step s = .next t) (before : s.nrdy = false)
    (after : t.nrdy = true) : (∃ g, s.startsRead g) ∧ s.ready = false := by
  obtain ⟨-, nrdy, -⟩ := step_flags h (inRst_of_flag h (.inr after))
  simpa [before, after, Option.isSome_iff_exists] using nrdy

/-- Settles O35: the one command accepted at the edge would be reserved and a READ. -/
theorem illAndNrdyNeverRiseTogether : Obligations.IllAndNrdyNeverRiseTogether := by
  rintro s t h ⟨illBefore, illAfter, nrdyBefore, nrdyAfter⟩
  obtain ⟨i, acc, res⟩ := exists_reserved_of_ill_rises h illBefore illAfter
  obtain ⟨⟨g, read⟩, -⟩ := exists_read_of_nrdy_rises h nrdyBefore nrdyAfter
  have gain : gainOf i = some g := by simpa [State.startsRead, acc] using read
  simp [gainOf_of_reserved res] at gain

end Sys2Proof.Machine
end

section
/-! PROOFS. Busy cycles, completion and the next acceptance of every command (70_reset_and_hazards.md
R184). -/

namespace Sys2Proof.Machine

/-- R184: from the edge that ends the cycle of `s` the block is busy for exactly `n` cycles, and idle in
the cycle after them, with `done` in it or not. -/
structure BusyFor (s : State) (n : Nat) (done : Bool) : Prop where
  busy : ∀ m, m < n → ∃ t, run (1 + m) s = .next t ∧ t.st ≠ .idle
  after : ∃ t, run (1 + n) s = .next t ∧ t.st = .idle ∧ t.done = done

/-- A command whose acceptance edge leaves the block idle. -/
theorem BusyFor.of_idle_edge {s t : State} (e : Edge s t) (st : t.st = .idle)
    (done : t.done = false) : BusyFor s 0 false where
  busy m inside := absurd inside m.not_lt_zero
  after := ⟨t, (run_one s).trans e.step_eq, st, done⟩

theorem BusyFor.of_read {s : State} {g : GainCode} (h : s.startsRead g)
    (noReset : s.noReset 1 (2 * s.params.tHalf * (25 + g.toNat))) :
    BusyFor s (2 * s.params.tHalf * (25 + g.toNat)) true where
  busy m inside := by
    obtain ⟨t, c⟩ := exists_readCycle h noReset m inside
    exact ⟨t, c.reached, State.busy_of_reading c.reading⟩
  after := by
    obtain ⟨t, reached, -⟩ := exists_completion h noReset
    exact ⟨t.complete, reached, rfl, rfl⟩

theorem BusyFor.of_power {s : State} {level : Bool} (start : Edge s (s.startPower level))
    (noReset : s.noReset 1 s.params.tPwr) : BusyFor s s.params.tPwr false where
  busy m inside := by
    obtain ⟨t, reached, block⟩ := exists_holdCycle start noReset m inside
    have st : t.st = .pwr := congrArg Block.st block
    exact ⟨t, reached, by simp [st]⟩
  after := by
    obtain ⟨t, reached, block⟩ := exists_holdEnd start noReset
    exact ⟨t, reached, congrArg Block.st block, congrArg Block.done block⟩

/-- R97, R184: the row of a READ is its length `L(g)`. -/
theorem busyCycles_of_gainOf {i : Instr} {g : GainCode} (gain : gainOf i = some g) (p : Params) :
    busyCycles p i = 2 * p.tHalf * (25 + g.toNat) := by
  rw [Nat.mul_right_comm]
  cases i <;> simp only [gainOf, reduceCtorEq, Option.some.injEq] at gain <;> subst gain <;> rfl

theorem busyCycles_of_reserved {i : Instr} (res : i.reserved = true) (p : Params) :
    busyCycles p i = 0 := by
  cases i <;> simp_all [busyCycles, Instr.reserved]

theorem isSome_gainOf_iff {i : Instr} :
    (gainOf i).isSome = true ↔ i = .read0 ∨ i = .read1 ∨ i = .read2 := by
  cases i <;> simp [gainOf]

/-- R184: every command has the count of its row, and ends with `done` exactly if it is a READ. -/
theorem busyFor_of_accepted {s : State} {i : Instr} (acc : s.accepted = some i)
    (noReset : s.noReset 1 (busyCycles s.params i)) :
    BusyFor s (busyCycles s.params i) (gainOf i).isSome := by
  have st := State.st_of_accepted acc
  obtain ⟨rfl, -⟩ | ⟨g, gain, -⟩ | ⟨rfl, -⟩ | ⟨rfl, -⟩ | ⟨res, -⟩ := exec_cases i s
  · exact .of_idle_edge (.nop acc) st rfl
  · rw [busyCycles_of_gainOf gain] at noReset ⊢
    rw [gain]
    exact .of_read (State.startsRead_iff.mpr ⟨i, acc, gain⟩) noReset
  · exact .of_power (.powerDown acc) noReset
  · exact .of_power (.powerUp acc) noReset
  · rw [busyCycles_of_reserved res, gainOf_of_reserved res]
    exact .of_idle_edge (.reserved i acc res) st rfl

/-- Settles O47: `busyFor_of_accepted`; a busy block shows no `done` and accepts nothing, an idle one
accepts what is presented. -/
theorem commandCycleCounts : Obligations.CommandCycleCounts := by
  intro s i acc noReset
  obtain ⟨busy, t, reached, st, done⟩ := busyFor_of_accepted acc noReset
  refine ⟨fun m inside => ?_, t, reached, st, by simp [State.busy, st],
    by rw [done, isSome_gainOf_iff],
    fun rst valid => State.accepted_eq_some.mpr ⟨rst, valid, st, rfl⟩⟩
  obtain ⟨u, reached, busy⟩ := busy m inside
  exact ⟨u, reached, decide_eq_true busy, run_done_of_busy reached busy,
    State.accepted_of_busy busy⟩

end Sys2Proof.Machine
end

section
/-! PROOFS. What the edges of a run keep (40_command_cycle.md R80). -/

namespace Sys2Proof.Machine

/-- What holds at first, and is kept by every edge of a run, holds after the run. -/
theorem run_induction {n : Nat} {s t : State} {P : State → Prop} (h : run n s = .next t)
    (first : P s)
    (keeps : ∀ m, m < n → ∀ u v, run m s = .next u → Edge u v → P u → P v) : P t := by
  induction n generalizing t with
  | zero => cases h; exact first
  | succ n ih =>
    obtain ⟨u, before⟩ := exists_run n s
    obtain ⟨v, e⟩ := exists_edge u
    cases h.symm.trans (run_succ_of_edge before e)
    exact keeps n n.lt_succ_self u _ before e
      (ih before fun m inside => keeps m (Nat.lt_succ_of_lt inside))

/-- A premise along a run holds in every cycle of it. -/
theorem Along.of_run {p : State → Prop} {n m : Nat} {s u : State} (along : Along p n s)
    (inside : m < n) (h : run m s = .next u) : p u := by
  induction m generalizing n s with
  | zero =>
    cases h
    cases n with
    | zero => exact absurd inside (Nat.lt_irrefl 0)
    | succ n => exact along.1
  | succ m ih =>
    cases n with
    | zero => exact absurd inside (Nat.not_lt_zero _)
    | succ n =>
      obtain ⟨w, hs⟩ := exists_step s
      exact ih (along.2 w hs) (Nat.lt_of_succ_lt_succ inside)
        ((run_succ_of_step hs m).symm.trans h)

end Sys2Proof.Machine
end

section
/-! PROOFS. The host's duties (70_reset_and_hazards.md R176, R177): what they give at one edge, over any
number of edges, and for a host program that waits for `ready` before each READ. -/

namespace Sys2Proof.Machine

/-- R177: the duty keeps `nrdy` at 0. -/
theorem nrdy_of_readsOnlyWhenReady {s t : State} (e : Edge s t) (duty : s.readsOnlyWhenReady)
    (before : s.nrdy = false) : t.nrdy = false := by
  by_contra after
  obtain ⟨⟨g, read⟩, notReady⟩ :=
    exists_read_of_nrdy_rises e.step_eq before (eq_true_of_ne_false after)
  obtain ⟨i, acc, gain⟩ := State.startsRead_iff.mp read
  obtain ⟨-, valid, -, rfl⟩ := State.accepted_eq_some.mp acc
  simp [duty valid (by simp [gain])] at notReady

/-- R31: without a reserved word `ill` stays 0. -/
theorem ill_of_presentsNoReserved {s t : State} (e : Edge s t) (duty : s.presentsNoReserved)
    (before : s.ill = false) : t.ill = false := by
  by_contra after
  obtain ⟨i, acc, res⟩ :=
    exists_reserved_of_ill_rises e.step_eq before (eq_true_of_ne_false after)
  obtain ⟨-, valid, -, rfl⟩ := State.accepted_eq_some.mp acc
  simp [duty valid] at res

theorem State.cmdReady_iff {s : State} : s.cmdReady = true ↔ s.st = .idle := decide_eq_true_iff

/-- R176: a host that keeps presenting `w` has it accepted in a cycle with `cmd_ready = 1`. -/
theorem hostTurn_hold_of_ready {b : State} (ready : b.cmdReady = true) (w : Cmd)
    (r : List HostAct) : hostTurn b (.hold w :: r) = ⟨⟨false, true, w⟩, r, []⟩ := by
  simp [hostTurn, ready]

/-- R176: before it, the host goes on presenting `w`. -/
theorem hostTurn_hold_of_busy {b : State} (busy : b.cmdReady = false) (w : Cmd)
    (r : List HostAct) :
    hostTurn b (.hold w :: r) = ⟨⟨false, true, w⟩, .hold w :: r, []⟩ := by
  simp [hostTurn, busy]

/-- Settles O50: R82 for the first form of R176, `hostTurn_hold_of_ready` and `hostTurn_hold_of_busy` for
the second, and `run_induction` with what each duty gives at one edge. -/
theorem dutifulHostSeesNoErrorFlag : Obligations.DutifulHostSeesNoErrorFlag := by
  refine ⟨fun s duty valid => ?_, fun b w r => ⟨fun ready => ?_, fun busy => ?_⟩,
    fun n s t along before h => ?_, fun n s t along before h => ?_⟩
  · obtain ⟨ready, rst⟩ := duty valid
    exact State.accepted_eq_some.mpr ⟨rst, valid, State.cmdReady_iff.mp ready, rfl⟩
  · rw [hostTurn_hold_of_ready ready]
    exact ⟨rfl, State.accepted_driving (State.cmdReady_iff.mp ready) w⟩
  · rw [hostTurn_hold_of_busy busy]
    have st : b.st ≠ .idle := of_decide_eq_false busy
    exact ⟨rfl, step_driving_of_none rfl (State.accepted_of_busy st) (State.accepted_of_busy st)⟩
  · exact run_induction h before fun m inside u v reached e =>
      nrdy_of_readsOnlyWhenReady e (along.of_run inside reached)
  · exact run_induction h before fun m inside u v reached e =>
      ill_of_presentsNoReserved e (along.of_run inside reached)

/-! A host program that waits for `ready` before each READ. -/

theorem readsOnlyWhenReady_of_not_valid {b : State} {p : PortIn} (silent : p.cmdValid = false) :
    (b.driving p).readsOnlyWhenReady :=
  fun valid => nomatch silent.symm.trans valid

theorem readsOnlyWhenReady_of_no_read {b : State} {p : PortIn}
    (noRead : (gainOf (decode p.cmd)).isNone = true) : (b.driving p).readsOnlyWhenReady :=
  fun _ read => absurd (Option.isNone_iff_eq_none.mp noRead) read

theorem readsOnlyWhenReady_of_ready {b : State} (ready : b.ready = true) (p : PortIn) :
    (b.driving p).readsOnlyWhenReady := fun _ _ => ready

/-- What a turn of the host does for R177: it keeps the duty, and leaves acts that keep it. -/
def KeepsReadsGuarded (b : State) (turn : HostTurn) : Prop :=
  (b.driving turn.port).readsOnlyWhenReady ∧ readsGuarded turn.rest = true

theorem keepsReadsGuarded_quiet (b : State) {acts : List HostAct}
    (guarded : readsGuarded acts = true) : KeepsReadsGuarded b ⟨PortIn.quiet, acts, []⟩ :=
  ⟨readsOnlyWhenReady_of_not_valid rfl, guarded⟩

/-- R177: every turn of a guarded host program keeps it guarded. -/
theorem hostTurn_keepsReadsGuarded (b : State) {acts : List HostAct}
    (guarded : readsGuarded acts = true) : KeepsReadsGuarded b (hostTurn b acts) := by
  induction acts using readsGuarded.induct with
  | case1 => exact keepsReadsGuarded_quiet b guarded
  | case2 w r =>
    obtain ⟨noRead, rest⟩ := Bool.and_eq_true_iff.mp guarded
    exact ⟨readsOnlyWhenReady_of_no_read noRead, rest⟩
  | case3 w r =>
    obtain ⟨noRead, rest⟩ := Bool.and_eq_true_iff.mp guarded
    refine ⟨readsOnlyWhenReady_of_no_read noRead, ?_⟩
    by_cases ready : b.cmdReady = true
    · rw [hostTurn_hold_of_ready ready]
      exact rest
    · rw [hostTurn_hold_of_busy (eq_false_of_ne_true ready)]
      exact guarded
  | case4 w r =>
    by_cases ready : b.ready = true
    · rw [hostTurn, if_pos ready]
      exact ⟨readsOnlyWhenReady_of_ready ready _, guarded⟩
    · rw [hostTurn, if_neg ready]
      exact keepsReadsGuarded_quiet b guarded
  | case5 r notPresent ih =>
    have rest : readsGuarded r = true := by
      rw [readsGuarded] at guarded
      · exact guarded
      · exact notPresent
    rw [hostTurn]
    split
    · exact ih rest
    · exact keepsReadsGuarded_quiet b guarded
  | case6 r => exact ⟨readsOnlyWhenReady_of_not_valid rfl, guarded⟩
  | case7 r ih | case8 r ih | case9 n r ih =>
    rw [hostTurn]
    split
    · exact ih guarded
    · exact keepsReadsGuarded_quiet b guarded

theorem System.of_step {y z : System} (h : y.step = some z) :
    Edge (y.block.driving (hostTurn y.block y.acts).port) z.block ∧
      z.acts = (hostTurn y.block y.acts).rest := by
  obtain ⟨c, e⟩ := exists_edge (y.block.driving (hostTurn y.block y.acts).port)
  cases (System.step_of_turn rfl e y.taken).symm.trans h
  exact ⟨e, rfl⟩

/-- R177: one edge under a guarded host program. -/
theorem System.nrdy_of_guarded {y z : System} (h : y.step = some z)
    (guarded : readsGuarded y.acts = true) (before : y.block.nrdy = false) :
    z.block.nrdy = false ∧ readsGuarded z.acts = true := by
  obtain ⟨e, acts⟩ := System.of_step h
  obtain ⟨duty, rest⟩ := hostTurn_keepsReadsGuarded y.block guarded
  exact ⟨nrdy_of_readsOnlyWhenReady e duty before, acts ▸ rest⟩

/-- R68, R175: each reading waits for `ready`. -/
theorem readsGuarded_readings (g : GainCode) : ∀ n, readsGuarded (readings g n) = true
  | 0 => rfl
  | n + 1 => readsGuarded_readings g n

/-- Settles O51: by induction on the edges with `System.nrdy_of_guarded`; the boot sequence presents no
READ but that of GAINSET. -/
theorem guardedHostNeverSetsNrdy : Obligations.GuardedHostNeverSetsNrdy := by
  refine ⟨fun n => ?_, fun g n => readsGuarded_readings g n⟩
  induction n with
  | zero =>
    rintro y z guarded before h
    cases h
    exact ⟨before, guarded⟩
  | succ n ih =>
    intro y z guarded before h
    cases hs : y.step with
    | some u =>
      obtain ⟨nrdy, acts⟩ := System.nrdy_of_guarded hs guarded before
      exact ih u z acts nrdy ((System.run_succ_of_step hs n).symm.trans h)
    | none => simp [System.run, hs] at h

end Sys2Proof.Machine
end

section
/-! PROOFS. The reset edge and what follows it (70_reset_and_hazards.md R170 to R174). -/

namespace Sys2Proof.Machine

/-- R170 -/
theorem State.block_resetEdge (s : State) : s.resetEdge.block = resetState := rfl

/-- An edge that accepts no command keeps the block in the reset state. -/
theorem Edge.block_of_resetState {s t : State} (e : Edge s t) (reset : s.block = resetState)
    (dropped : s.accepted = none) : t.block = resetState := by
  cases rst : s.inRst with
  | true =>
    cases e.step_eq.symm.trans (step_of_rst rst)
    exact s.block_resetEdge
  | false =>
    cases e.step_eq.symm.trans (Edge.quiet rst dropped (congrArg Block.st reset)).step_eq
    rw [State.block_tick, reset]
    rfl

/-- R171, R172: after a reset edge the block stays in the reset state while each cycle has `rst = 1` or
presents no command. -/
theorem exists_run_resetState {s : State} {n : Nat} (rst : s.inRst = true)
    (dropped : ∀ j, j < n → (s.portAt (1 + j)).rst = true ∨ (s.portAt (1 + j)).cmdValid = false) :
    ∃ t, run (1 + n) s = .next t ∧ t.block = resetState := by
  obtain ⟨t, h⟩ := exists_run n s.resetEdge
  refine ⟨t, (run_add ((run_one s).trans (step_of_rst rst))).trans h,
    run_induction (P := fun u => u.block = resetState) h s.block_resetEdge
      fun m inside u v reached e reset => ?_⟩
  have port : u.portAt 0 = s.portAt (1 + m) := by
    rw [run_portAt reached, State.portAt_of_tail s.resetEdge_port, Nat.add_comm 1]
  refine e.block_of_resetState reset ?_
  obtain rst | notValid := dropped m inside
  · exact State.accepted_of_rst (by rw [State.inRst, port, rst])
  · exact State.accepted_of_not_valid (by rw [State.inCmdValid, port, notValid])

/-- Settles O10: `exists_run_resetState`. -/
theorem heldResetKeepsResetState : Obligations.HeldResetKeepsResetState := by
  intro s n held
  obtain ⟨t, reached, block⟩ := exists_run_resetState (n := n) (held 0 n.zero_le)
    fun j inside => .inl (held (1 + j) (by omega))
  simp only [State.block, resetState, Block.mk.injEq] at block
  exact ⟨t, Nat.add_comm 1 n ▸ reached, block⟩

/-- Settles O11: `exists_run_resetState`; that a READ was in flight plays no part. -/
theorem resetAbortsRead : Obligations.ResetAbortsRead := by
  intro s n _ rst noCommand
  obtain ⟨t, reached, block⟩ := exists_run_resetState rst
    fun j inside => .inr (noCommand j inside)
  simp only [State.block, resetState, Block.mk.injEq] at block
  obtain ⟨st, -, -, -, sr, frame, sck, valid, done, -, -⟩ := block
  exact ⟨t, reached, st, sck, frame, sr, valid, done⟩

/-- Settles O9: the registers, and the ports of an idle block whose registers are clear. -/
theorem resetEdgeFromAnyState : Obligations.ResetEdgeFromAnyState := by
  intro s rst
  have value : s.resetEdge.value = 0x00000000#32 := by
    rw [State.value, State.resetEdge_frame]
    decide
  exact ⟨s.resetEdge, step_of_rst rst, rfl, rfl, rfl, rfl, rfl, rfl, rfl, rfl, rfl, rfl, rfl, rfl,
    rfl, rfl, rfl, value, State.status_of_reset s.block_resetEdge,
    fun rst valid => State.accepted_eq_some.mpr ⟨rst, valid, rfl, rfl⟩⟩

/-- R174: the invariant holds after a reset edge, whatever the state before it. -/
theorem Inv.resetEdge (s : State) : Inv s.resetEdge := .of_idle rfl rfl rfl (by simp) (by simp)

/-- Settles O27: `Inv.resetEdge`, and every edge keeps the invariant. -/
theorem resetEdgeEstablishesInvariant : Obligations.ResetEdgeEstablishesInvariant := by
  intro s t n rst h
  have first := (run_one s).trans (step_of_rst rst)
  exact run_induction ((run_add first).symm.trans h) (.resetEdge s) fun _ _ _ _ _ e => e.inv

end Sys2Proof.Machine
end

section
/-! PROOFS. The reset pulse that the monitor keeps as owed (70_reset_and_hazards.md R179). -/

namespace Sys2Proof.Machine

/-- Everything the monitor can do at an edge. -/
theorem Monitor.watch_cases (m : Monitor) (s : State) :
    m.watch s = m.onReset s ∨ (∃ i, s.accepted = some i ∧ m.watch s = m.onAccept s i) ∨
    m.watch s = m.onComplete s ∨ m.watch s = m := by
  unfold Monitor.watch
  split
  · exact .inl rfl
  · split
    next i acc => exact .inr (.inl ⟨i, acc, rfl⟩)
    next => split <;> simp

/-- R179: at an acceptance the owed pulse is paid by a POWER_UP that follows a POWER_DOWN. -/
theorem Monitor.owesPulse_onAccept (m : Monitor) (s : State) (i : Instr) :
    (m.onAccept s i).owesPulse = (m.owesPulse && !(m.halfPulse && decide (i = .powerUp))) := by
  cases i <;> simp [Monitor.onAccept, gainOf]

theorem Monitor.halfPulse_onAccept (m : Monitor) (s : State) (i : Instr) :
    (m.onAccept s i).halfPulse = true → m.halfPulse = true ∨ i = .powerDown := by
  cases i <;> simp +contextual [Monitor.onAccept, gainOf]

theorem Monitor.readAllowed_eq_false_iff {m : Monitor} :
    m.readAllowed = false ↔ m.owesPulse = true := by simp [Monitor.readAllowed]

/-- R172, R179: a reset in a READ. -/
theorem Monitor.watch_of_aborted {s : State} (reading : s.reading) (rst : s.inRst = true)
    (m : Monitor) : (m.watch s).owesPulse = true ∧ (m.watch s).halfPulse = false := by
  have watched : m.watch s = m.onReset s := if_pos rst
  rw [watched]
  obtain st | st := reading <;> simp [Monitor.onReset, st]

/-- R179: where an owed pulse is paid. -/
theorem Monitor.pulse_of_paid {m : Monitor} {s : State} (owed : m.owesPulse = true)
    (paid : (m.watch s).owesPulse = false) : m.halfPulse = true ∧ s.accepted = some .powerUp := by
  obtain e | ⟨i, acc, e⟩ | e | e := m.watch_cases s <;> rw [e] at paid
  · simp [Monitor.onReset, owed] at paid
  · obtain ⟨half, rfl⟩ : m.halfPulse = true ∧ i = .powerUp := by
      simpa [Monitor.owesPulse_onAccept, owed] using paid
    exact ⟨half, acc⟩
  · cases owed.symm.trans paid
  · cases owed.symm.trans paid

/-- R68: where the first half of a reset pulse is seen. -/
theorem Monitor.powerDown_of_half {m : Monitor} {s : State} (before : m.halfPulse = false)
    (after : (m.watch s).halfPulse = true) : s.accepted = some .powerDown := by
  obtain e | ⟨i, acc, e⟩ | e | e := m.watch_cases s <;> rw [e] at after
  · cases after
  · obtain half | rfl := m.halfPulse_onAccept s i after
    · cases before.symm.trans half
    · exact acc
  · cases before.symm.trans after
  · cases before.symm.trans after

/-- Settles O55: `Monitor.watch_of_aborted`, `Monitor.pulse_of_paid` and `Monitor.powerDown_of_half`. -/
theorem abortedReadOwesResetPulse : Obligations.AbortedReadOwesResetPulse := by
  refine ⟨fun m s reading rst => ?_, fun m s owed paid => ?_,
    fun m s => Monitor.powerDown_of_half⟩
  · obtain ⟨owed, half⟩ := m.watch_of_aborted reading rst
    exact ⟨Monitor.readAllowed_eq_false_iff.mpr owed, half⟩
  · exact Monitor.pulse_of_paid (Monitor.readAllowed_eq_false_iff.mp owed)
      (by simpa [Monitor.readAllowed] using paid)

end Sys2Proof.Machine
end
